-- ==== Sys2Proof/Word.lean ====
section
/-! DEFINITION. The widths of the machine's data: byte, word, register number, extended real. -/

namespace Sys2Proof

/-- One byte of memory. -/
abbrev Byte := BitVec 8

/-- One 32-bit word: a register, an address, an instruction word (R20, R27, R80). -/
abbrev Word := BitVec 32

/-- A register number: 0 to 15 are r0 to r15, 16 to 31 are g0 to g15 (R20). -/
abbrev Reg := BitVec 5

/-- An 80-bit extended real: sign, 15-bit exponent, 64-bit significand with explicit integer bit (R46). -/
abbrev Ext := BitVec 80

end Sys2Proof
end

