-- ==== Sys2Proof/Config.lean ====
section
/-!
DEFINITION. What an implementation fixes and what the spec leaves free.

Every constant here is opaque: it has no body, so nothing in Lean can evaluate it and no proof can use a value of
it. A free value that must be fresh at every use is applied to the state's counter `serial` and to an index inside
the instruction (log 72).
-/

namespace Sys2Proof.Config

/-- A word the spec leaves undefined (`any value`), fresh for each `serial` and `idx` (log 72). -/
opaque freeWord (serial idx : Nat) : Word

/-- A bit the spec leaves undefined, fresh for each `serial` and `idx` (log 72). -/
opaque freeBit (serial idx : Nat) : Bool

/-- An extended real the spec leaves undefined, fresh for each `serial` and `idx` (log 72). -/
opaque freeExt (serial idx : Nat) : Ext

/-- What a read of r2 of the current frame returns (R23, D9, U5; log 23). -/
opaque ripRead (serial : Nat) : Word

/-- What a device answers to a read of one byte (R91: the environment chooses; log 16). -/
opaque deviceByte (serial addr : Nat) : Byte

/-- U1: does a reserved floating-point source encoding signal an invalid opcode fault, or give an undefined value?
One choice for each instance (log 30). -/
opaque reservedSourceFaults (serial idx : Nat) : Bool

/-- U2: does a literal or reserved destination signal an invalid opcode fault, or put an undefined value in a
register? One choice for each instance (log 31). -/
opaque reservedDestFaults (serial : Nat) : Bool

/-- U2: the register that receives the undefined result of a literal or reserved destination (log 31). -/
opaque strayRegister (serial : Nat) : Reg

/-- U2: does the undefined result of a reserved floating-point destination go to a floating-point register, and to
which (log 31)? -/
opaque strayFloat (serial : Nat) : Option (BitVec 2)

/-- U4: does a reserved scale value fault in a MEMB mode that has no index (log 32)? -/
opaque unusedScaleFaults (scale : BitVec 3) : Bool

/-- Underflow: is a result tiny before rounding (true) or after it (false)? Not stated (log 48). -/
opaque tininessBeforeRounding : Bool

/-- R443: a zero divisor of `remr` signals zero-divide (true) or invalid operation (false) (log 42). -/
opaque remainderZeroDivides : Bool

/-- The vector taken among several pending ones of the same priority, as a position in their list (R527; log 8). -/
opaque pendingPick (serial : Nat) : Nat

/-- Which function a transcendental instruction computes (R453 to R466). -/
inductive Transcendental where
  | logBase2 | logEpsilon | exponential | sine | cosine | tangent | arctangent
deriving DecidableEq, Repr

/-- The number the floating-point unit arrives at for a transcendental (R425: the parameter `FP.op`), before it is rounded
to its destination: plus or minus `m * 2^e`, and whether the exact result differs from it. -/
structure FpAnswer where
  neg : Bool
  m : Nat
  e : Int
  inexact : Bool
deriving DecidableEq, Repr, Inhabited

/-- What a transcendental comes to where the spec does not say that it is a number: an operand that is infinite, or that may
be out of the valid range (R425, R455, U26; logs 46, 89, 90). -/
inductive FpKind where
  | number
  | infinite (neg : Bool)
  | nan (neg : Bool) (sig : BitVec 64)
  | invalid
deriving DecidableEq, Repr, Inhabited

/-- D20, U22: what a transcendental arrives at for a destination of `precision` significant bits, under rounding control
`rc`, on two operands in extended form; not constrained (log 46). -/
opaque fpFunction (f : Transcendental) (precision : Nat) (rc : BitVec 2) (x y : Ext) : FpAnswer

/-- U26: the kind of a result the spec leaves undefined (logs 46, 89, 90). -/
opaque fpKind (f : Transcendental) (x y : Ext) : FpKind

/-- U29: which of the values a stored word has had since the last purge of the instruction cache a fetch of it sees
(log 20). -/
opaque staleFetch (serial addr : Nat) : Nat

/-- Which of the two breakpoint registers a set-breakpoint message loads, by its fields 1 and 2; not stated (R541, R562;
log 19). -/
opaque breakpointSelect (field1 : BitVec 8) (field2 : BitVec 16) : Bool

end Sys2Proof.Config
end

