-- ==== Sys2Proof/Syntax.lean ====
section
/-!
DEFINITION. The instructions of the 80960MC (R160): one constructor for each row of the opcode table, named as its
mnemonic, with the operand forms the formats give it (R130 to R152).
-/

namespace Sys2Proof

/-- A source of a REG or COBR instruction: a general register, or an ordinal literal 0 to 31 (R138, R142). -/
inductive Src where
  | reg (r : Reg)
  | lit (n : BitVec 5)
deriving DecidableEq, Repr

/-- The src/dst field of a non-floating-point REG instruction used as a destination: a general register, or, with
M3 = 1, a field that is not allowed there (R140, U2). -/
inductive Dst where
  | reg (r : Reg)
  | lit (n : BitVec 5)
deriving DecidableEq, Repr

/-- A floating-point source (R139): general registers, fp0 to fp3, a real literal, or a reserved code (U1). -/
inductive FSrc where
  | reg (r : Reg)
  | fp (k : BitVec 2)
  | zero
  | one
  | reserved (code : BitVec 5)
deriving DecidableEq, Repr

/-- A floating-point destination (R140): general registers, fp0 to fp3, or a reserved code (U2). -/
inductive FDst where
  | reg (r : Reg)
  | fp (k : BitVec 2)
  | reserved (code : BitVec 5)
deriving DecidableEq, Repr

/-- The index multiplier of a MEMB operand (R151). -/
inductive Scale where
  | x1 | x2 | x4 | x8 | x16
deriving DecidableEq, Repr

/-- A memory operand: the two MEMA and seven MEMB addressing modes (R149, R150). -/
inductive MemOp where
  | offset (off : BitVec 12)
  | baseOffset (abase : Reg) (off : BitVec 12)
  | base (abase : Reg)
  | ipDisp (disp : Word)
  | baseIndex (abase index : Reg) (scale : Scale)
  | disp (disp : Word)
  | baseDisp (abase : Reg) (disp : Word)
  | indexDisp (index : Reg) (scale : Scale) (disp : Word)
  | baseIndexDisp (abase index : Reg) (scale : Scale) (disp : Word)
deriving DecidableEq, Repr

/-- The 201 instructions of R160. -/
inductive Instr where
  | b (disp : BitVec 22)
  | call (disp : BitVec 22)
  | ret
  | bal (disp : BitVec 22)
  | bno (disp : BitVec 22)
  | bg (disp : BitVec 22)
  | be (disp : BitVec 22)
  | bge (disp : BitVec 22)
  | bl (disp : BitVec 22)
  | bne (disp : BitVec 22)
  | ble (disp : BitVec 22)
  | bo (disp : BitVec 22)
  | faultno
  | faultg
  | faulte
  | faultge
  | faultl
  | faultne
  | faultle
  | faulto
  | testno (dst : Reg)
  | testg (dst : Reg)
  | teste (dst : Reg)
  | testge (dst : Reg)
  | testl (dst : Reg)
  | testne (dst : Reg)
  | testle (dst : Reg)
  | testo (dst : Reg)
  | bbc (src1 : Src) (src2 : Reg) (disp : BitVec 11)
  | cmpobg (src1 : Src) (src2 : Reg) (disp : BitVec 11)
  | cmpobe (src1 : Src) (src2 : Reg) (disp : BitVec 11)
  | cmpobge (src1 : Src) (src2 : Reg) (disp : BitVec 11)
  | cmpobl (src1 : Src) (src2 : Reg) (disp : BitVec 11)
  | cmpobne (src1 : Src) (src2 : Reg) (disp : BitVec 11)
  | cmpoble (src1 : Src) (src2 : Reg) (disp : BitVec 11)
  | bbs (src1 : Src) (src2 : Reg) (disp : BitVec 11)
  | cmpibno (src1 : Src) (src2 : Reg) (disp : BitVec 11)
  | cmpibg (src1 : Src) (src2 : Reg) (disp : BitVec 11)
  | cmpibe (src1 : Src) (src2 : Reg) (disp : BitVec 11)
  | cmpibge (src1 : Src) (src2 : Reg) (disp : BitVec 11)
  | cmpibl (src1 : Src) (src2 : Reg) (disp : BitVec 11)
  | cmpibne (src1 : Src) (src2 : Reg) (disp : BitVec 11)
  | cmpible (src1 : Src) (src2 : Reg) (disp : BitVec 11)
  | cmpibo (src1 : Src) (src2 : Reg) (disp : BitVec 11)
  | ldob (reg : Reg) (mem : MemOp)
  | stob (reg : Reg) (mem : MemOp)
  | bx (mem : MemOp)
  | balx (reg : Reg) (mem : MemOp)
  | callx (mem : MemOp)
  | ldos (reg : Reg) (mem : MemOp)
  | stos (reg : Reg) (mem : MemOp)
  | lda (reg : Reg) (mem : MemOp)
  | ld (reg : Reg) (mem : MemOp)
  | st (reg : Reg) (mem : MemOp)
  | ldl (reg : Reg) (mem : MemOp)
  | stl (reg : Reg) (mem : MemOp)
  | ldt (reg : Reg) (mem : MemOp)
  | stt (reg : Reg) (mem : MemOp)
  | ldq (reg : Reg) (mem : MemOp)
  | stq (reg : Reg) (mem : MemOp)
  | ldib (reg : Reg) (mem : MemOp)
  | stib (reg : Reg) (mem : MemOp)
  | ldis (reg : Reg) (mem : MemOp)
  | stis (reg : Reg) (mem : MemOp)
  | notbit (src1 : Src) (src2 : Src) (dst : Dst)
  | and (src1 : Src) (src2 : Src) (dst : Dst)
  | andnot (src1 : Src) (src2 : Src) (dst : Dst)
  | setbit (src1 : Src) (src2 : Src) (dst : Dst)
  | notand (src1 : Src) (src2 : Src) (dst : Dst)
  | xor (src1 : Src) (src2 : Src) (dst : Dst)
  | or (src1 : Src) (src2 : Src) (dst : Dst)
  | nor (src1 : Src) (src2 : Src) (dst : Dst)
  | xnor (src1 : Src) (src2 : Src) (dst : Dst)
  | not (src : Src) (dst : Dst)
  | ornot (src1 : Src) (src2 : Src) (dst : Dst)
  | clrbit (src1 : Src) (src2 : Src) (dst : Dst)
  | notor (src1 : Src) (src2 : Src) (dst : Dst)
  | nand (src1 : Src) (src2 : Src) (dst : Dst)
  | alterbit (src1 : Src) (src2 : Src) (dst : Dst)
  | addo (src1 : Src) (src2 : Src) (dst : Dst)
  | addi (src1 : Src) (src2 : Src) (dst : Dst)
  | subo (src1 : Src) (src2 : Src) (dst : Dst)
  | subi (src1 : Src) (src2 : Src) (dst : Dst)
  | shro (src1 : Src) (src2 : Src) (dst : Dst)
  | shrdi (src1 : Src) (src2 : Src) (dst : Dst)
  | shri (src1 : Src) (src2 : Src) (dst : Dst)
  | shlo (src1 : Src) (src2 : Src) (dst : Dst)
  | rotate (src1 : Src) (src2 : Src) (dst : Dst)
  | shli (src1 : Src) (src2 : Src) (dst : Dst)
  | cmpo (src1 : Src) (src2 : Src)
  | cmpi (src1 : Src) (src2 : Src)
  | concmpo (src1 : Src) (src2 : Src)
  | concmpi (src1 : Src) (src2 : Src)
  | cmpinco (src1 : Src) (src2 : Src) (dst : Dst)
  | cmpinci (src1 : Src) (src2 : Src) (dst : Dst)
  | cmpdeco (src1 : Src) (src2 : Src) (dst : Dst)
  | cmpdeci (src1 : Src) (src2 : Src) (dst : Dst)
  | scanbyte (src1 : Src) (src2 : Src)
  | chkbit (src1 : Src) (src2 : Src)
  | addc (src1 : Src) (src2 : Src) (dst : Dst)
  | subc (src1 : Src) (src2 : Src) (dst : Dst)
  | mov (src : Src) (dst : Dst)
  | movl (src : Src) (dst : Dst)
  | movt (src : Src) (dst : Dst)
  | movq (src : Src) (dst : Dst)
  | synmov (src1 : Src) (src2 : Src)
  | synmovl (src1 : Src) (src2 : Src)
  | synmovq (src1 : Src) (src2 : Src)
  | cmpstr (src1 : Src) (src2 : Src) (src3 : Src)
  | movqstr (src1 : Src) (src2 : Src) (src3 : Src)
  | movstr (src1 : Src) (src2 : Src) (src3 : Src)
  | atmod (src1 : Src) (src2 : Src) (dst : Dst)
  | atadd (src1 : Src) (src2 : Src) (dst : Dst)
  | inspacc (src : Src) (dst : Dst)
  | ldphy (src : Src) (dst : Dst)
  | synld (src : Src) (dst : Dst)
  | fill (src1 : Src) (src2 : Src) (src3 : Src)
  | spanbit (src : Src) (dst : Dst)
  | scanbit (src : Src) (dst : Dst)
  | daddc (src1 : Src) (src2 : Src) (dst : Dst)
  | dsubc (src1 : Src) (src2 : Src) (dst : Dst)
  | dmovt (src : Src) (dst : Dst)
  | modac (src1 : Src) (src2 : Src) (dst : Dst)
  | condrec (src : Src) (dst : Dst)
  | modify (src1 : Src) (src2 : Src) (dst : Dst)
  | extract (src1 : Src) (src2 : Src) (dst : Dst)
  | modtc (src1 : Src) (src2 : Src) (dst : Dst)
  | modpc (src1 : Src) (src2 : Src) (dst : Dst)
  | receive (src : Src) (dst : Dst)
  | calls (src : Src)
  | send (src1 : Src) (src2 : Src) (src3 : Src)
  | sendserv (src : Src)
  | resumprcs (src : Src)
  | schedprcs (src : Src)
  | saveprcs
  | condwait (src : Src)
  | wait (src : Src)
  | signal (src : Src)
  | mark
  | fmark
  | flushreg
  | syncf
  | emul (src1 : Src) (src2 : Src) (dst : Dst)
  | ediv (src1 : Src) (src2 : Src) (dst : Dst)
  | ldtime (dst : Dst)
  | cvtir (src : Src) (dst : FDst)
  | cvtilr (src : Src) (dst : FDst)
  | scalerl (src1 : Src) (src2 : FSrc) (dst : FDst)
  | scaler (src1 : Src) (src2 : FSrc) (dst : FDst)
  | atanr (src1 : FSrc) (src2 : FSrc) (dst : FDst)
  | logepr (src1 : FSrc) (src2 : FSrc) (dst : FDst)
  | logr (src1 : FSrc) (src2 : FSrc) (dst : FDst)
  | remr (src1 : FSrc) (src2 : FSrc) (dst : FDst)
  | cmpor (src1 : FSrc) (src2 : FSrc)
  | cmpr (src1 : FSrc) (src2 : FSrc)
  | sqrtr (src : FSrc) (dst : FDst)
  | expr (src : FSrc) (dst : FDst)
  | logbnr (src : FSrc) (dst : FDst)
  | roundr (src : FSrc) (dst : FDst)
  | sinr (src : FSrc) (dst : FDst)
  | cosr (src : FSrc) (dst : FDst)
  | tanr (src : FSrc) (dst : FDst)
  | classr (src : FSrc)
  | atanrl (src1 : FSrc) (src2 : FSrc) (dst : FDst)
  | logeprl (src1 : FSrc) (src2 : FSrc) (dst : FDst)
  | logrl (src1 : FSrc) (src2 : FSrc) (dst : FDst)
  | remrl (src1 : FSrc) (src2 : FSrc) (dst : FDst)
  | cmporl (src1 : FSrc) (src2 : FSrc)
  | cmprl (src1 : FSrc) (src2 : FSrc)
  | sqrtrl (src : FSrc) (dst : FDst)
  | exprl (src : FSrc) (dst : FDst)
  | logbnrl (src : FSrc) (dst : FDst)
  | roundrl (src : FSrc) (dst : FDst)
  | sinrl (src : FSrc) (dst : FDst)
  | cosrl (src : FSrc) (dst : FDst)
  | tanrl (src : FSrc) (dst : FDst)
  | classrl (src : FSrc)
  | cvtri (src : FSrc) (dst : Dst)
  | cvtril (src : FSrc) (dst : Dst)
  | cvtzri (src : FSrc) (dst : Dst)
  | cvtzril (src : FSrc) (dst : Dst)
  | movr (src : FSrc) (dst : FDst)
  | movrl (src : FSrc) (dst : FDst)
  | movre (src : FSrc) (dst : FDst)
  | cpysre (src1 : FSrc) (src2 : FSrc) (dst : FDst)
  | cpyrsre (src1 : FSrc) (src2 : FSrc) (dst : FDst)
  | mulo (src1 : Src) (src2 : Src) (dst : Dst)
  | remo (src1 : Src) (src2 : Src) (dst : Dst)
  | divo (src1 : Src) (src2 : Src) (dst : Dst)
  | muli (src1 : Src) (src2 : Src) (dst : Dst)
  | remi (src1 : Src) (src2 : Src) (dst : Dst)
  | modi (src1 : Src) (src2 : Src) (dst : Dst)
  | divi (src1 : Src) (src2 : Src) (dst : Dst)
  | divr (src1 : FSrc) (src2 : FSrc) (dst : FDst)
  | mulr (src1 : FSrc) (src2 : FSrc) (dst : FDst)
  | subr (src1 : FSrc) (src2 : FSrc) (dst : FDst)
  | addr (src1 : FSrc) (src2 : FSrc) (dst : FDst)
  | divrl (src1 : FSrc) (src2 : FSrc) (dst : FDst)
  | mulrl (src1 : FSrc) (src2 : FSrc) (dst : FDst)
  | subrl (src1 : FSrc) (src2 : FSrc) (dst : FDst)
  | addrl (src1 : FSrc) (src2 : FSrc) (dst : FDst)
deriving DecidableEq, Repr

end Sys2Proof
end

