-- ==== Sys2Proof/WellFormed.lean ====
section
/-!
DEFINITION. Which terms of `Instr` are instructions the model runs: a reserved floating-point code is one the tables
reserve (R139, R140), and a register group starts at a register its size divides (R202, R26; D14, U9).
-/

namespace Sys2Proof

/-- A register group of `n` words starts at register `r`: even for 2 words, a multiple of 4 for 3 or 4 (R202). -/
def Reg.startsGroup (n : Nat) (r : Reg) : Bool := r.toNat % n == 0

/-- R139: the field values that name neither a floating-point register nor a real literal. -/
def reservedSourceCode (c : BitVec 5) : Bool := !(c.toNat < 4 || c.toNat == 0x10 || c.toNat == 0x16)

/-- R140: the field values above fp3. -/
def reservedDestCode (c : BitVec 5) : Bool := !(c.toNat < 4)

/-- A register operand of `n` words; the alignment is asked only when `strict`. -/
def Reg.ok (strict : Bool) (n : Nat) (r : Reg) : Bool := !strict || Reg.startsGroup n r

/-- A REG source of `n` words. -/
def Src.ok (strict : Bool) (n : Nat) : Src → Bool
  | .reg r => Reg.ok strict n r
  | .lit _ => true

/-- A REG destination of `n` words. -/
def Dst.ok (strict : Bool) (n : Nat) : Dst → Bool
  | .reg r => Reg.ok strict n r
  | .lit _ => true

/-- A floating-point source of `n` words. -/
def FSrc.ok (strict : Bool) (n : Nat) : FSrc → Bool
  | .reg r => Reg.ok strict n r
  | .fp _ => true
  | .zero => true
  | .one => true
  | .reserved c => reservedSourceCode c

/-- A floating-point destination of `n` words. -/
def FDst.ok (strict : Bool) (n : Nat) : FDst → Bool
  | .reg r => Reg.ok strict n r
  | .fp _ => true
  | .reserved c => reservedDestCode c

/-- The checks of an instruction's operands, its size in words with each register group (R202). -/
def Instr.operandsOk (strict : Bool) : Instr → Bool
  | .b _ => true
  | .call _ => true
  | .ret => true
  | .bal _ => true
  | .bno _ => true
  | .bg _ => true
  | .be _ => true
  | .bge _ => true
  | .bl _ => true
  | .bne _ => true
  | .ble _ => true
  | .bo _ => true
  | .faultno => true
  | .faultg => true
  | .faulte => true
  | .faultge => true
  | .faultl => true
  | .faultne => true
  | .faultle => true
  | .faulto => true
  | .testno _ => true
  | .testg _ => true
  | .teste _ => true
  | .testge _ => true
  | .testl _ => true
  | .testne _ => true
  | .testle _ => true
  | .testo _ => true
  | .bbc _ _ _ => true
  | .cmpobg _ _ _ => true
  | .cmpobe _ _ _ => true
  | .cmpobge _ _ _ => true
  | .cmpobl _ _ _ => true
  | .cmpobne _ _ _ => true
  | .cmpoble _ _ _ => true
  | .bbs _ _ _ => true
  | .cmpibno _ _ _ => true
  | .cmpibg _ _ _ => true
  | .cmpibe _ _ _ => true
  | .cmpibge _ _ _ => true
  | .cmpibl _ _ _ => true
  | .cmpibne _ _ _ => true
  | .cmpible _ _ _ => true
  | .cmpibo _ _ _ => true
  | .ldob _ _ => true
  | .stob _ _ => true
  | .bx _ => true
  | .balx _ _ => true
  | .callx _ => true
  | .ldos _ _ => true
  | .stos _ _ => true
  | .lda _ _ => true
  | .ld _ _ => true
  | .st _ _ => true
  | .ldl x _ => Reg.ok strict 2 x
  | .stl x _ => Reg.ok strict 2 x
  | .ldt x _ => Reg.ok strict 4 x
  | .stt x _ => Reg.ok strict 4 x
  | .ldq x _ => Reg.ok strict 4 x
  | .stq x _ => Reg.ok strict 4 x
  | .ldib _ _ => true
  | .stib _ _ => true
  | .ldis _ _ => true
  | .stis _ _ => true
  | .notbit _ _ _ => true
  | .and _ _ _ => true
  | .andnot _ _ _ => true
  | .setbit _ _ _ => true
  | .notand _ _ _ => true
  | .xor _ _ _ => true
  | .or _ _ _ => true
  | .nor _ _ _ => true
  | .xnor _ _ _ => true
  | .not _ _ => true
  | .ornot _ _ _ => true
  | .clrbit _ _ _ => true
  | .notor _ _ _ => true
  | .nand _ _ _ => true
  | .alterbit _ _ _ => true
  | .addo _ _ _ => true
  | .addi _ _ _ => true
  | .subo _ _ _ => true
  | .subi _ _ _ => true
  | .shro _ _ _ => true
  | .shrdi _ _ _ => true
  | .shri _ _ _ => true
  | .shlo _ _ _ => true
  | .rotate _ _ _ => true
  | .shli _ _ _ => true
  | .cmpo _ _ => true
  | .cmpi _ _ => true
  | .concmpo _ _ => true
  | .concmpi _ _ => true
  | .cmpinco _ _ _ => true
  | .cmpinci _ _ _ => true
  | .cmpdeco _ _ _ => true
  | .cmpdeci _ _ _ => true
  | .scanbyte _ _ => true
  | .chkbit _ _ => true
  | .addc _ _ _ => true
  | .subc _ _ _ => true
  | .mov _ _ => true
  | .movl x y => x.ok strict 2 && y.ok strict 2
  | .movt x y => x.ok strict 4 && y.ok strict 4
  | .movq x y => x.ok strict 4 && y.ok strict 4
  | .synmov _ _ => true
  | .synmovl _ _ => true
  | .synmovq _ _ => true
  | .cmpstr _ _ _ => true
  | .movqstr _ _ _ => true
  | .movstr _ _ _ => true
  | .atmod _ _ _ => true
  | .atadd _ _ _ => true
  | .inspacc _ _ => true
  | .ldphy _ _ => true
  | .synld _ _ => true
  | .fill _ _ _ => true
  | .spanbit _ _ => true
  | .scanbit _ _ => true
  | .daddc _ _ _ => true
  | .dsubc _ _ _ => true
  | .dmovt _ _ => true
  | .modac _ _ _ => true
  | .condrec _ _ => true
  | .modify _ _ _ => true
  | .extract _ _ _ => true
  | .modtc _ _ _ => true
  | .modpc _ _ _ => true
  | .receive _ _ => true
  | .calls _ => true
  | .send _ _ _ => true
  | .sendserv _ => true
  | .resumprcs _ => true
  | .schedprcs _ => true
  | .saveprcs => true
  | .condwait _ => true
  | .wait _ => true
  | .signal _ => true
  | .mark => true
  | .fmark => true
  | .flushreg => true
  | .syncf => true
  | .emul _ _ z => z.ok strict 2
  | .ediv _ y z => y.ok strict 2 && z.ok strict 2
  | .ldtime x => x.ok strict 2
  | .cvtir _ y => y.ok strict 1
  | .cvtilr x y => x.ok strict 2 && y.ok strict 1
  | .scalerl _ y z => y.ok strict 2 && z.ok strict 2
  | .scaler _ y z => y.ok strict 1 && z.ok strict 1
  | .atanr x y z => x.ok strict 1 && y.ok strict 1 && z.ok strict 1
  | .logepr x y z => x.ok strict 1 && y.ok strict 1 && z.ok strict 1
  | .logr x y z => x.ok strict 1 && y.ok strict 1 && z.ok strict 1
  | .remr x y z => x.ok strict 1 && y.ok strict 1 && z.ok strict 1
  | .cmpor x y => x.ok strict 1 && y.ok strict 1
  | .cmpr x y => x.ok strict 1 && y.ok strict 1
  | .sqrtr x y => x.ok strict 1 && y.ok strict 1
  | .expr x y => x.ok strict 1 && y.ok strict 1
  | .logbnr x y => x.ok strict 1 && y.ok strict 1
  | .roundr x y => x.ok strict 1 && y.ok strict 1
  | .sinr x y => x.ok strict 1 && y.ok strict 1
  | .cosr x y => x.ok strict 1 && y.ok strict 1
  | .tanr x y => x.ok strict 1 && y.ok strict 1
  | .classr x => x.ok strict 1
  | .atanrl x y z => x.ok strict 2 && y.ok strict 2 && z.ok strict 2
  | .logeprl x y z => x.ok strict 2 && y.ok strict 2 && z.ok strict 2
  | .logrl x y z => x.ok strict 2 && y.ok strict 2 && z.ok strict 2
  | .remrl x y z => x.ok strict 2 && y.ok strict 2 && z.ok strict 2
  | .cmporl x y => x.ok strict 2 && y.ok strict 2
  | .cmprl x y => x.ok strict 2 && y.ok strict 2
  | .sqrtrl x y => x.ok strict 2 && y.ok strict 2
  | .exprl x y => x.ok strict 2 && y.ok strict 2
  | .logbnrl x y => x.ok strict 2 && y.ok strict 2
  | .roundrl x y => x.ok strict 2 && y.ok strict 2
  | .sinrl x y => x.ok strict 2 && y.ok strict 2
  | .cosrl x y => x.ok strict 2 && y.ok strict 2
  | .tanrl x y => x.ok strict 2 && y.ok strict 2
  | .classrl x => x.ok strict 2
  | .cvtri x _ => x.ok strict 1
  | .cvtril x y => x.ok strict 1 && y.ok strict 2
  | .cvtzri x _ => x.ok strict 1
  | .cvtzril x y => x.ok strict 1 && y.ok strict 2
  | .movr x y => x.ok strict 1 && y.ok strict 1
  | .movrl x y => x.ok strict 2 && y.ok strict 2
  | .movre x y => x.ok strict 4 && y.ok strict 4
  | .cpysre x y z => x.ok strict 4 && y.ok strict 4 && z.ok strict 4
  | .cpyrsre x y z => x.ok strict 4 && y.ok strict 4 && z.ok strict 4
  | .mulo _ _ _ => true
  | .remo _ _ _ => true
  | .divo _ _ _ => true
  | .muli _ _ _ => true
  | .remi _ _ _ => true
  | .modi _ _ _ => true
  | .divi _ _ _ => true
  | .divr x y z => x.ok strict 1 && y.ok strict 1 && z.ok strict 1
  | .mulr x y z => x.ok strict 1 && y.ok strict 1 && z.ok strict 1
  | .subr x y z => x.ok strict 1 && y.ok strict 1 && z.ok strict 1
  | .addr x y z => x.ok strict 1 && y.ok strict 1 && z.ok strict 1
  | .divrl x y z => x.ok strict 2 && y.ok strict 2 && z.ok strict 2
  | .mulrl x y z => x.ok strict 2 && y.ok strict 2 && z.ok strict 2
  | .subrl x y z => x.ok strict 2 && y.ok strict 2 && z.ok strict 2
  | .addrl x y z => x.ok strict 2 && y.ok strict 2 && z.ok strict 2

/-- An instruction the formats can encode: its reserved codes are reserved ones. -/
def Instr.encodable (i : Instr) : Bool := i.operandsOk false

/-- An instruction that is encodable and whose register groups are aligned (D14). -/
def Instr.wellFormed (i : Instr) : Bool := i.operandsOk true

end Sys2Proof
end

