-- ==== Sys2Proof/Decode.lean ====
section
/-!
DEFINITION. The decoder, total on any words and bytes, and the encoder (R130 to R152, R160, R165, R166).
-/

namespace Sys2Proof

/-- Why a word is no instruction. `unknownOpcode`, `reservedMode` and `reservedScale` are Operation.InvalidOpcode
faults of the machine (R150, R151, R165); `reservedBits` is outside the model (R166, D7, log 27); `truncated` says that
the bytes ended. -/
inductive DecodeError where
  | truncated
  | unknownOpcode
  | reservedMode
  | reservedScale
  | reservedBits
deriving DecidableEq, Repr

/-- What is decoded from some words: an instruction and the words after it, or the reason there is none. -/
abbrev DecodeResult := Except DecodeError (Instr × List Word)

/-! ### Fields (R132, R135, R136, R137) -/

/-- Bits 31:24. -/
def opcodeOf (w : Word) : Nat := (w.extractLsb' 24 8).toNat

/-- R133: the 12-bit REG opcode, bits 31:24 and 10:7. -/
def regOpcodeOf (w : Word) : Nat := (w.extractLsb' 24 8 ++ w.extractLsb' 7 4).toNat

/-- Bits 23:19: src/dst of REG and MEM, src1 of COBR. -/
def field23 (w : Word) : BitVec 5 := w.extractLsb' 19 5

/-- Bits 18:14: src2 of REG and COBR, abase of MEM. -/
def field18 (w : Word) : BitVec 5 := w.extractLsb' 14 5

/-- Bits 4:0: src1 of REG, index of MEMB. -/
def field4 (w : Word) : BitVec 5 := w.extractLsb' 0 5

/-- A mode bit, or any single bit. -/
def bitAt (w : Word) (k : Nat) : Bool := w.getLsbD k

/-- Bits 6:5 of REG and MEMB are the special-function-register bits (R132, R137). -/
def sfrBits (w : Word) : BitVec 2 := w.extractLsb' 5 2

/-- Bits 1:0 of CTRL and COBR (R135, R136). -/
def lowBits (w : Word) : BitVec 2 := w.extractLsb' 0 2

/-! ### Operands -/

/-- R138: a REG source field under its mode bit. -/
def toSrc (m : Bool) (f : BitVec 5) : Src := if m then .lit f else .reg f

/-- R140: the src/dst field of a non-floating-point instruction as a destination. -/
def toDst (m : Bool) (f : BitVec 5) : Dst := if m then .lit f else .reg f

/-- R139: a floating-point source field. -/
def toFSrc (m : Bool) (f : BitVec 5) : FSrc :=
  if m then
    if f.toNat < 4 then .fp (f.extractLsb' 0 2)
    else if f.toNat = 0x10 then .zero
    else if f.toNat = 0x16 then .one
    else .reserved f
  else .reg f

/-- R140: the src/dst field of a floating-point instruction. -/
def toFDst (m : Bool) (f : BitVec 5) : FDst :=
  if m then if f.toNat < 4 then .fp (f.extractLsb' 0 2) else .reserved f
  else .reg f

/-- R151: the scale field; 0b101 to 0b111 are reserved. -/
def toScale (c : BitVec 3) : Option Scale :=
  match c.toNat with
  | 0 => some .x1
  | 1 => some .x2
  | 2 => some .x4
  | 3 => some .x8
  | 4 => some .x16
  | _ => none

/-! ### The opcode tables (R160)

A row gives an opcode and what builds the instruction from its decoded operands. -/

/-- CTRL rows: with a displacement, or without an operand (R136, R147). -/
inductive CtrlForm where
  | targ (f : BitVec 22 → Instr)
  | none (i : Instr)

/-- COBR rows: test-if (R144), or two sources and a displacement (R142). -/
inductive CobrForm where
  | test (f : Reg → Instr)
  | branch (f : Src → Reg → BitVec 11 → Instr)

/-- MEM rows: with the src/dst register, or with a target only (R148). -/
inductive MemForm where
  | reg (f : Reg → MemOp → Instr)
  | targ (f : MemOp → Instr)

/-- REG rows, by the operands the instruction defines (R140, R154, R160). -/
inductive RegForm where
  | none (i : Instr)
  | s (f : Src → Instr)
  | d (f : Dst → Instr)
  | sd (f : Src → Dst → Instr)
  | ss (f : Src → Src → Instr)
  | ssd (f : Src → Src → Dst → Instr)
  | sss (f : Src → Src → Src → Instr)
  | ff (f : FSrc → FDst → Instr)
  | fff (f : FSrc → FSrc → FDst → Instr)
  | sff (f : Src → FSrc → FDst → Instr)
  | sf (f : Src → FDst → Instr)
  | fd (f : FSrc → Dst → Instr)
  | fCompare (f : FSrc → FSrc → Instr)
  | fClass (f : FSrc → Instr)

/-- The CTRL opcodes of R160. -/
def ctrlTable : List (Nat × CtrlForm) :=
  [(0x8, .targ .b),
   (0x9, .targ .call),
   (0xA, .none .ret),
   (0xB, .targ .bal),
   (0x10, .targ .bno),
   (0x11, .targ .bg),
   (0x12, .targ .be),
   (0x13, .targ .bge),
   (0x14, .targ .bl),
   (0x15, .targ .bne),
   (0x16, .targ .ble),
   (0x17, .targ .bo),
   (0x18, .none .faultno),
   (0x19, .none .faultg),
   (0x1A, .none .faulte),
   (0x1B, .none .faultge),
   (0x1C, .none .faultl),
   (0x1D, .none .faultne),
   (0x1E, .none .faultle),
   (0x1F, .none .faulto)]

/-- The COBR opcodes of R160. -/
def cobrTable : List (Nat × CobrForm) :=
  [(0x20, .test .testno),
   (0x21, .test .testg),
   (0x22, .test .teste),
   (0x23, .test .testge),
   (0x24, .test .testl),
   (0x25, .test .testne),
   (0x26, .test .testle),
   (0x27, .test .testo),
   (0x30, .branch .bbc),
   (0x31, .branch .cmpobg),
   (0x32, .branch .cmpobe),
   (0x33, .branch .cmpobge),
   (0x34, .branch .cmpobl),
   (0x35, .branch .cmpobne),
   (0x36, .branch .cmpoble),
   (0x37, .branch .bbs),
   (0x38, .branch .cmpibno),
   (0x39, .branch .cmpibg),
   (0x3A, .branch .cmpibe),
   (0x3B, .branch .cmpibge),
   (0x3C, .branch .cmpibl),
   (0x3D, .branch .cmpibne),
   (0x3E, .branch .cmpible),
   (0x3F, .branch .cmpibo)]

/-- The MEM opcodes of R160. -/
def memTable : List (Nat × MemForm) :=
  [(0x80, .reg .ldob),
   (0x82, .reg .stob),
   (0x84, .targ .bx),
   (0x85, .reg .balx),
   (0x86, .targ .callx),
   (0x88, .reg .ldos),
   (0x8A, .reg .stos),
   (0x8C, .reg .lda),
   (0x90, .reg .ld),
   (0x92, .reg .st),
   (0x98, .reg .ldl),
   (0x9A, .reg .stl),
   (0xA0, .reg .ldt),
   (0xA2, .reg .stt),
   (0xB0, .reg .ldq),
   (0xB2, .reg .stq),
   (0xC0, .reg .ldib),
   (0xC2, .reg .stib),
   (0xC8, .reg .ldis),
   (0xCA, .reg .stis)]

/-- The REG opcodes of R160. Part 1. -/
def regTable1 : List (Nat × RegForm) :=
  [(0x580, .ssd .notbit),
   (0x581, .ssd .and),
   (0x582, .ssd .andnot),
   (0x583, .ssd .setbit),
   (0x584, .ssd .notand),
   (0x586, .ssd .xor),
   (0x587, .ssd .or),
   (0x588, .ssd .nor),
   (0x589, .ssd .xnor),
   (0x58A, .sd .not),
   (0x58B, .ssd .ornot),
   (0x58C, .ssd .clrbit),
   (0x58D, .ssd .notor),
   (0x58E, .ssd .nand),
   (0x58F, .ssd .alterbit),
   (0x590, .ssd .addo),
   (0x591, .ssd .addi),
   (0x592, .ssd .subo),
   (0x593, .ssd .subi),
   (0x598, .ssd .shro),
   (0x59A, .ssd .shrdi),
   (0x59B, .ssd .shri),
   (0x59C, .ssd .shlo),
   (0x59D, .ssd .rotate),
   (0x59E, .ssd .shli),
   (0x5A0, .ss .cmpo),
   (0x5A1, .ss .cmpi),
   (0x5A2, .ss .concmpo)]

/-- The REG opcodes of R160. Part 2. -/
def regTable2 : List (Nat × RegForm) :=
  [(0x5A3, .ss .concmpi),
   (0x5A4, .ssd .cmpinco),
   (0x5A5, .ssd .cmpinci),
   (0x5A6, .ssd .cmpdeco),
   (0x5A7, .ssd .cmpdeci),
   (0x5AC, .ss .scanbyte),
   (0x5AE, .ss .chkbit),
   (0x5B0, .ssd .addc),
   (0x5B2, .ssd .subc),
   (0x5CC, .sd .mov),
   (0x5DC, .sd .movl),
   (0x5EC, .sd .movt),
   (0x5FC, .sd .movq),
   (0x600, .ss .synmov),
   (0x601, .ss .synmovl),
   (0x602, .ss .synmovq),
   (0x603, .sss .cmpstr),
   (0x604, .sss .movqstr),
   (0x605, .sss .movstr),
   (0x610, .ssd .atmod),
   (0x612, .ssd .atadd),
   (0x613, .sd .inspacc),
   (0x614, .sd .ldphy),
   (0x615, .sd .synld),
   (0x617, .sss .fill),
   (0x640, .sd .spanbit),
   (0x641, .sd .scanbit),
   (0x642, .ssd .daddc)]

/-- The REG opcodes of R160. Part 3. -/
def regTable3 : List (Nat × RegForm) :=
  [(0x643, .ssd .dsubc),
   (0x644, .sd .dmovt),
   (0x645, .ssd .modac),
   (0x646, .sd .condrec),
   (0x650, .ssd .modify),
   (0x651, .ssd .extract),
   (0x654, .ssd .modtc),
   (0x655, .ssd .modpc),
   (0x656, .sd .receive),
   (0x660, .s .calls),
   (0x662, .sss .send),
   (0x663, .s .sendserv),
   (0x664, .s .resumprcs),
   (0x665, .s .schedprcs),
   (0x666, .none .saveprcs),
   (0x668, .s .condwait),
   (0x669, .s .wait),
   (0x66A, .s .signal),
   (0x66B, .none .mark),
   (0x66C, .none .fmark),
   (0x66D, .none .flushreg),
   (0x66F, .none .syncf),
   (0x670, .ssd .emul),
   (0x671, .ssd .ediv),
   (0x673, .d .ldtime),
   (0x674, .sf .cvtir),
   (0x675, .sf .cvtilr),
   (0x676, .sff .scalerl)]

/-- The REG opcodes of R160. Part 4. -/
def regTable4 : List (Nat × RegForm) :=
  [(0x677, .sff .scaler),
   (0x680, .fff .atanr),
   (0x681, .fff .logepr),
   (0x682, .fff .logr),
   (0x683, .fff .remr),
   (0x684, .fCompare .cmpor),
   (0x685, .fCompare .cmpr),
   (0x688, .ff .sqrtr),
   (0x689, .ff .expr),
   (0x68A, .ff .logbnr),
   (0x68B, .ff .roundr),
   (0x68C, .ff .sinr),
   (0x68D, .ff .cosr),
   (0x68E, .ff .tanr),
   (0x68F, .fClass .classr),
   (0x690, .fff .atanrl),
   (0x691, .fff .logeprl),
   (0x692, .fff .logrl),
   (0x693, .fff .remrl),
   (0x694, .fCompare .cmporl),
   (0x695, .fCompare .cmprl),
   (0x698, .ff .sqrtrl),
   (0x699, .ff .exprl),
   (0x69A, .ff .logbnrl),
   (0x69B, .ff .roundrl),
   (0x69C, .ff .sinrl),
   (0x69D, .ff .cosrl),
   (0x69E, .ff .tanrl)]

/-- The REG opcodes of R160. Part 5. -/
def regTable5 : List (Nat × RegForm) :=
  [(0x69F, .fClass .classrl),
   (0x6C0, .fd .cvtri),
   (0x6C1, .fd .cvtril),
   (0x6C2, .fd .cvtzri),
   (0x6C3, .fd .cvtzril),
   (0x6C9, .ff .movr),
   (0x6D9, .ff .movrl),
   (0x6E1, .ff .movre),
   (0x6E2, .fff .cpysre),
   (0x6E3, .fff .cpyrsre),
   (0x701, .ssd .mulo),
   (0x708, .ssd .remo),
   (0x70B, .ssd .divo),
   (0x741, .ssd .muli),
   (0x748, .ssd .remi),
   (0x749, .ssd .modi),
   (0x74B, .ssd .divi),
   (0x78B, .fff .divr),
   (0x78C, .fff .mulr),
   (0x78D, .fff .subr),
   (0x78F, .fff .addr),
   (0x79B, .fff .divrl),
   (0x79C, .fff .mulrl),
   (0x79D, .fff .subrl),
   (0x79F, .fff .addrl)]

/-- The REG opcodes of R160. -/
def regTable : List (Nat × RegForm) := regTable1 ++ regTable2 ++ regTable3 ++ regTable4 ++ regTable5

/-! ### Decoding one instruction -/

/-- R136, R146, R147, R166. -/
def decodeCtrl (w : Word) (rest : List Word) : DecodeResult :=
  match ctrlTable.lookup (opcodeOf w) with
  | none => .error .unknownOpcode
  | some form =>
    if lowBits w ≠ 0 then .error .reservedBits else
    match form with
    | .targ f => .ok (f (w.extractLsb' 2 22), rest)
    | .none i => .ok (i, rest)

/-- R135, R142, R144, R166. -/
def decodeCobr (w : Word) (rest : List Word) : DecodeResult :=
  match cobrTable.lookup (opcodeOf w) with
  | none => .error .unknownOpcode
  | some form =>
    if lowBits w ≠ 0 then .error .reservedBits else
    match form with
    | .test f => .ok (f (field23 w), rest)
    | .branch f => .ok (f (toSrc (bitAt w 13) (field23 w)) (field18 w) (w.extractLsb' 2 11), rest)

/-- The scale of an indexed operand, or Operation.InvalidOpcode (R151). -/
def indexed (w : Word) (k : Scale → Except DecodeError (MemOp × List Word)) :
    Except DecodeError (MemOp × List Word) :=
  match toScale (w.extractLsb' 7 3) with
  | some sc => k sc
  | none => .error .reservedScale

/-- An operand without an index: a reserved scale value is ignored or faults (U4, log 32). -/
def unindexed (w : Word) (r : Except DecodeError (MemOp × List Word)) : Except DecodeError (MemOp × List Word) :=
  match toScale (w.extractLsb' 7 3) with
  | some _ => r
  | none => if Config.unusedScaleFaults (w.extractLsb' 7 3) then .error .reservedScale else r

/-- The operand that needs the displacement word after the instruction word (R134). -/
def withDisp (rest : List Word) (f : Word → MemOp) : Except DecodeError (MemOp × List Word) :=
  match rest with
  | [] => .error .truncated
  | d :: rest => .ok (f d, rest)

/-- R149, R150: the memory operand of a MEM instruction and the words after the instruction. A reserved mode or scale is found
here, before a misaligned register group (R202): the model's choice (log 76). -/
def decodeMemOp (w : Word) (rest : List Word) : Except DecodeError (MemOp × List Word) :=
  if bitAt w 12 = false then
    if bitAt w 13 then .ok (.baseOffset (field18 w) (w.extractLsb' 0 12), rest)
    else .ok (.offset (w.extractLsb' 0 12), rest)
  else if sfrBits w ≠ 0 then .error .reservedBits
  else
    match (w.extractLsb' 10 4).toNat with
    | 4 => unindexed w (.ok (.base (field18 w), rest))
    | 5 => unindexed w (withDisp rest .ipDisp)
    | 7 => indexed w fun sc => .ok (.baseIndex (field18 w) (field4 w) sc, rest)
    | 12 => unindexed w (withDisp rest .disp)
    | 13 => unindexed w (withDisp rest (.baseDisp (field18 w)))
    | 14 => indexed w fun sc => withDisp rest (.indexDisp (field4 w) sc)
    | 15 => indexed w fun sc => withDisp rest (.baseIndexDisp (field18 w) (field4 w) sc)
    | _ => .error .reservedMode

/-- R137, R148. -/
def decodeMem (w : Word) (rest : List Word) : DecodeResult :=
  match memTable.lookup (opcodeOf w) with
  | none => .error .unknownOpcode
  | some form =>
    match decodeMemOp w rest with
    | .error e => .error e
    | .ok (m, rest) =>
      match form with
      | .reg f => .ok (f (field23 w) m, rest)
      | .targ f => .ok (f m, rest)

/-- The instruction a REG row builds from the word's fields (R138, R139, R140, R141). -/
def RegForm.build (form : RegForm) (w : Word) : Instr :=
  let src1 := toSrc (bitAt w 11) (field4 w)
  let src2 := toSrc (bitAt w 12) (field18 w)
  let src3 := toSrc (bitAt w 13) (field23 w)
  let dst := toDst (bitAt w 13) (field23 w)
  let fsrc1 := toFSrc (bitAt w 11) (field4 w)
  let fsrc2 := toFSrc (bitAt w 12) (field18 w)
  let fdst := toFDst (bitAt w 13) (field23 w)
  match form with
  | .none i => i
  | .s f => f src1
  | .d f => f dst
  | .sd f => f src1 dst
  | .ss f => f src1 src2
  | .ssd f => f src1 src2 dst
  | .sss f => f src1 src2 src3
  | .ff f => f fsrc1 fdst
  | .fff f => f fsrc1 fsrc2 fdst
  | .sff f => f src1 fsrc2 fdst
  | .sf f => f src1 fdst
  | .fd f => f fsrc1 dst
  | .fCompare f => f fsrc1 fsrc2
  | .fClass f => f fsrc1

/-- R132, R133, R166. The opcode is looked at before the bits that must be 0: an order of the model's, in each format
(log 76). -/
def decodeReg (w : Word) (rest : List Word) : DecodeResult :=
  match regTable.lookup (regOpcodeOf w) with
  | none => .error .unknownOpcode
  | some form => if sfrBits w ≠ 0 then .error .reservedBits else .ok (form.build w, rest)

/-- R131: the format an opcode selects. -/
def decodeWord (w : Word) (rest : List Word) : DecodeResult :=
  if opcodeOf w < 0x20 then decodeCtrl w rest
  else if opcodeOf w < 0x40 then decodeCobr w rest
  else if opcodeOf w < 0x80 then decodeReg w rest
  else decodeMem w rest

/-- The decoder: the first instruction of some words, and the words after it. -/
def decode : List Word → DecodeResult
  | [] => .error .truncated
  | w :: rest => decodeWord w rest

/-- R134: does the instruction whose first word is `w` take a displacement word? The first word alone tells. -/
def hasDisplacement (w : Word) : Bool :=
  decide (0x80 ≤ opcodeOf w) && bitAt w 12 &&
    ((w.extractLsb' 10 4).toNat == 5 || decide (12 ≤ (w.extractLsb' 10 4).toNat))

/-! ### Bytes (R81: little-endian, D1) -/

/-- The word of four bytes, the first at the lowest address. -/
def wordOfBytes (b0 b1 b2 b3 : Byte) : Word := b3 ++ b2 ++ b1 ++ b0

/-- The words of some bytes; bytes short of a word at the end are dropped. -/
def wordsOfBytes : List Byte → List Word
  | b0 :: b1 :: b2 :: b3 :: rest => wordOfBytes b0 b1 b2 b3 :: wordsOfBytes rest
  | _ => []

/-- Byte `k` of a word. -/
def byteOf (w : Word) (k : Nat) : Byte := w.extractLsb' (8 * k) 8

/-- The bytes of a word, lowest address first. -/
def bytesOfWord (w : Word) : List Byte := [byteOf w 0, byteOf w 1, byteOf w 2, byteOf w 3]

/-- The bytes of an instruction of at most 8 bytes whose bits are `w`, numbered as the opcode table numbers them, the
bits from `nbits` on being 0. -/
def tableBytes (nbits w : Nat) : List Byte :=
  bytesOfWord (BitVec.ofNat 32 (w % 2 ^ nbits)) ++ bytesOfWord (BitVec.ofNat 32 (w % 2 ^ nbits / 2 ^ 32))

/-- The instruction the decoder reads from an instruction whose bits are `w`. -/
def decodeTableWord (nbits w : Nat) : Option Instr :=
  match decode (wordsOfBytes (tableBytes nbits w)) with
  | .ok (i, _) => some i
  | .error _ => none

/-! ### The encoder

Unused fields are encoded with their mode bit set and the field 0 (R141), ignored fields with zeros (log 73). -/

/-- R136. -/
def ctrlWord (op : BitVec 8) (disp : BitVec 22) : Word := op ++ disp ++ 0#2

/-- R135. -/
def cobrWord (op : BitVec 8) (f1 f2 : BitVec 5) (m : Bool) (disp : BitVec 11) : Word :=
  op ++ f1 ++ f2 ++ BitVec.ofBool m ++ disp ++ 0#2

/-- R132, R133. -/
def regWord (op : BitVec 12) (f3 f2 f1 : Bool × BitVec 5) : Word :=
  op.extractLsb' 4 8 ++ f3.2 ++ f2.2 ++ BitVec.ofBool f3.1 ++ BitVec.ofBool f2.1 ++ BitVec.ofBool f1.1 ++
    op.extractLsb' 0 4 ++ 0#2 ++ f1.2

/-- R137, MEMA. -/
def memaWord (op : BitVec 8) (reg abase : Reg) (mode : Bool) (off : BitVec 12) : Word :=
  op ++ reg ++ abase ++ BitVec.ofBool mode ++ 0#1 ++ off

/-- R137, MEMB. -/
def membWord (op : BitVec 8) (reg abase : Reg) (mode : BitVec 4) (scale : BitVec 3) (index : Reg) : Word :=
  op ++ reg ++ abase ++ mode ++ scale ++ 0#2 ++ index

/-- R138: mode bit and field. -/
def Src.bits : Src → Bool × BitVec 5
  | .reg r => (false, r)
  | .lit n => (true, n)

/-- R140. -/
def Dst.bits : Dst → Bool × BitVec 5
  | .reg r => (false, r)
  | .lit n => (true, n)

/-- R139. -/
def FSrc.bits : FSrc → Bool × BitVec 5
  | .reg r => (false, r)
  | .fp k => (true, k.setWidth 5)
  | .zero => (true, 0x10#5)
  | .one => (true, 0x16#5)
  | .reserved c => (true, c)

/-- R140. -/
def FDst.bits : FDst → Bool × BitVec 5
  | .reg r => (false, r)
  | .fp k => (true, k.setWidth 5)
  | .reserved c => (true, c)

/-- R151. -/
def Scale.code : Scale → BitVec 3
  | .x1 => 0#3
  | .x2 => 1#3
  | .x4 => 2#3
  | .x8 => 3#3
  | .x16 => 4#3

/-- An unused REG operand: its mode bit set, its field 0 (R141). -/
def unusedField : Bool × BitVec 5 := (true, 0#5)

/-- R149, R150: the words of a MEM instruction. -/
def memWords (op : BitVec 8) (reg : Reg) : MemOp → List Word
  | .offset off => [memaWord op reg 0#5 false off]
  | .baseOffset b off => [memaWord op reg b true off]
  | .base b => [membWord op reg b 4#4 0#3 0#5]
  | .ipDisp d => [membWord op reg 0#5 5#4 0#3 0#5, d]
  | .baseIndex b i sc => [membWord op reg b 7#4 sc.code i]
  | .disp d => [membWord op reg 0#5 12#4 0#3 0#5, d]
  | .baseDisp b d => [membWord op reg b 13#4 0#3 0#5, d]
  | .indexDisp i sc d => [membWord op reg 0#5 14#4 sc.code i, d]
  | .baseIndexDisp b i sc d => [membWord op reg b 15#4 sc.code i, d]

/-- The words of an instruction, first word first. -/
def encode : Instr → List Word
  | .b disp => [ctrlWord 0x8#8 disp]
  | .call disp => [ctrlWord 0x9#8 disp]
  | .ret => [ctrlWord 0xA#8 0#22]
  | .bal disp => [ctrlWord 0xB#8 disp]
  | .bno disp => [ctrlWord 0x10#8 disp]
  | .bg disp => [ctrlWord 0x11#8 disp]
  | .be disp => [ctrlWord 0x12#8 disp]
  | .bge disp => [ctrlWord 0x13#8 disp]
  | .bl disp => [ctrlWord 0x14#8 disp]
  | .bne disp => [ctrlWord 0x15#8 disp]
  | .ble disp => [ctrlWord 0x16#8 disp]
  | .bo disp => [ctrlWord 0x17#8 disp]
  | .faultno => [ctrlWord 0x18#8 0#22]
  | .faultg => [ctrlWord 0x19#8 0#22]
  | .faulte => [ctrlWord 0x1A#8 0#22]
  | .faultge => [ctrlWord 0x1B#8 0#22]
  | .faultl => [ctrlWord 0x1C#8 0#22]
  | .faultne => [ctrlWord 0x1D#8 0#22]
  | .faultle => [ctrlWord 0x1E#8 0#22]
  | .faulto => [ctrlWord 0x1F#8 0#22]
  | .testno dst => [cobrWord 0x20#8 dst 0#5 false 0#11]
  | .testg dst => [cobrWord 0x21#8 dst 0#5 false 0#11]
  | .teste dst => [cobrWord 0x22#8 dst 0#5 false 0#11]
  | .testge dst => [cobrWord 0x23#8 dst 0#5 false 0#11]
  | .testl dst => [cobrWord 0x24#8 dst 0#5 false 0#11]
  | .testne dst => [cobrWord 0x25#8 dst 0#5 false 0#11]
  | .testle dst => [cobrWord 0x26#8 dst 0#5 false 0#11]
  | .testo dst => [cobrWord 0x27#8 dst 0#5 false 0#11]
  | .bbc x y disp => [cobrWord 0x30#8 x.bits.2 y x.bits.1 disp]
  | .cmpobg x y disp => [cobrWord 0x31#8 x.bits.2 y x.bits.1 disp]
  | .cmpobe x y disp => [cobrWord 0x32#8 x.bits.2 y x.bits.1 disp]
  | .cmpobge x y disp => [cobrWord 0x33#8 x.bits.2 y x.bits.1 disp]
  | .cmpobl x y disp => [cobrWord 0x34#8 x.bits.2 y x.bits.1 disp]
  | .cmpobne x y disp => [cobrWord 0x35#8 x.bits.2 y x.bits.1 disp]
  | .cmpoble x y disp => [cobrWord 0x36#8 x.bits.2 y x.bits.1 disp]
  | .bbs x y disp => [cobrWord 0x37#8 x.bits.2 y x.bits.1 disp]
  | .cmpibno x y disp => [cobrWord 0x38#8 x.bits.2 y x.bits.1 disp]
  | .cmpibg x y disp => [cobrWord 0x39#8 x.bits.2 y x.bits.1 disp]
  | .cmpibe x y disp => [cobrWord 0x3A#8 x.bits.2 y x.bits.1 disp]
  | .cmpibge x y disp => [cobrWord 0x3B#8 x.bits.2 y x.bits.1 disp]
  | .cmpibl x y disp => [cobrWord 0x3C#8 x.bits.2 y x.bits.1 disp]
  | .cmpibne x y disp => [cobrWord 0x3D#8 x.bits.2 y x.bits.1 disp]
  | .cmpible x y disp => [cobrWord 0x3E#8 x.bits.2 y x.bits.1 disp]
  | .cmpibo x y disp => [cobrWord 0x3F#8 x.bits.2 y x.bits.1 disp]
  | .ldob r m => memWords 0x80#8 r m
  | .stob r m => memWords 0x82#8 r m
  | .bx m => memWords 0x84#8 0#5 m
  | .balx r m => memWords 0x85#8 r m
  | .callx m => memWords 0x86#8 0#5 m
  | .ldos r m => memWords 0x88#8 r m
  | .stos r m => memWords 0x8A#8 r m
  | .lda r m => memWords 0x8C#8 r m
  | .ld r m => memWords 0x90#8 r m
  | .st r m => memWords 0x92#8 r m
  | .ldl r m => memWords 0x98#8 r m
  | .stl r m => memWords 0x9A#8 r m
  | .ldt r m => memWords 0xA0#8 r m
  | .stt r m => memWords 0xA2#8 r m
  | .ldq r m => memWords 0xB0#8 r m
  | .stq r m => memWords 0xB2#8 r m
  | .ldib r m => memWords 0xC0#8 r m
  | .stib r m => memWords 0xC2#8 r m
  | .ldis r m => memWords 0xC8#8 r m
  | .stis r m => memWords 0xCA#8 r m
  | .notbit x y z => [regWord 0x580#12 z.bits y.bits x.bits]
  | .and x y z => [regWord 0x581#12 z.bits y.bits x.bits]
  | .andnot x y z => [regWord 0x582#12 z.bits y.bits x.bits]
  | .setbit x y z => [regWord 0x583#12 z.bits y.bits x.bits]
  | .notand x y z => [regWord 0x584#12 z.bits y.bits x.bits]
  | .xor x y z => [regWord 0x586#12 z.bits y.bits x.bits]
  | .or x y z => [regWord 0x587#12 z.bits y.bits x.bits]
  | .nor x y z => [regWord 0x588#12 z.bits y.bits x.bits]
  | .xnor x y z => [regWord 0x589#12 z.bits y.bits x.bits]
  | .not x y => [regWord 0x58A#12 y.bits unusedField x.bits]
  | .ornot x y z => [regWord 0x58B#12 z.bits y.bits x.bits]
  | .clrbit x y z => [regWord 0x58C#12 z.bits y.bits x.bits]
  | .notor x y z => [regWord 0x58D#12 z.bits y.bits x.bits]
  | .nand x y z => [regWord 0x58E#12 z.bits y.bits x.bits]
  | .alterbit x y z => [regWord 0x58F#12 z.bits y.bits x.bits]
  | .addo x y z => [regWord 0x590#12 z.bits y.bits x.bits]
  | .addi x y z => [regWord 0x591#12 z.bits y.bits x.bits]
  | .subo x y z => [regWord 0x592#12 z.bits y.bits x.bits]
  | .subi x y z => [regWord 0x593#12 z.bits y.bits x.bits]
  | .shro x y z => [regWord 0x598#12 z.bits y.bits x.bits]
  | .shrdi x y z => [regWord 0x59A#12 z.bits y.bits x.bits]
  | .shri x y z => [regWord 0x59B#12 z.bits y.bits x.bits]
  | .shlo x y z => [regWord 0x59C#12 z.bits y.bits x.bits]
  | .rotate x y z => [regWord 0x59D#12 z.bits y.bits x.bits]
  | .shli x y z => [regWord 0x59E#12 z.bits y.bits x.bits]
  | .cmpo x y => [regWord 0x5A0#12 unusedField y.bits x.bits]
  | .cmpi x y => [regWord 0x5A1#12 unusedField y.bits x.bits]
  | .concmpo x y => [regWord 0x5A2#12 unusedField y.bits x.bits]
  | .concmpi x y => [regWord 0x5A3#12 unusedField y.bits x.bits]
  | .cmpinco x y z => [regWord 0x5A4#12 z.bits y.bits x.bits]
  | .cmpinci x y z => [regWord 0x5A5#12 z.bits y.bits x.bits]
  | .cmpdeco x y z => [regWord 0x5A6#12 z.bits y.bits x.bits]
  | .cmpdeci x y z => [regWord 0x5A7#12 z.bits y.bits x.bits]
  | .scanbyte x y => [regWord 0x5AC#12 unusedField y.bits x.bits]
  | .chkbit x y => [regWord 0x5AE#12 unusedField y.bits x.bits]
  | .addc x y z => [regWord 0x5B0#12 z.bits y.bits x.bits]
  | .subc x y z => [regWord 0x5B2#12 z.bits y.bits x.bits]
  | .mov x y => [regWord 0x5CC#12 y.bits unusedField x.bits]
  | .movl x y => [regWord 0x5DC#12 y.bits unusedField x.bits]
  | .movt x y => [regWord 0x5EC#12 y.bits unusedField x.bits]
  | .movq x y => [regWord 0x5FC#12 y.bits unusedField x.bits]
  | .synmov x y => [regWord 0x600#12 unusedField y.bits x.bits]
  | .synmovl x y => [regWord 0x601#12 unusedField y.bits x.bits]
  | .synmovq x y => [regWord 0x602#12 unusedField y.bits x.bits]
  | .cmpstr x y z => [regWord 0x603#12 z.bits y.bits x.bits]
  | .movqstr x y z => [regWord 0x604#12 z.bits y.bits x.bits]
  | .movstr x y z => [regWord 0x605#12 z.bits y.bits x.bits]
  | .atmod x y z => [regWord 0x610#12 z.bits y.bits x.bits]
  | .atadd x y z => [regWord 0x612#12 z.bits y.bits x.bits]
  | .inspacc x y => [regWord 0x613#12 y.bits unusedField x.bits]
  | .ldphy x y => [regWord 0x614#12 y.bits unusedField x.bits]
  | .synld x y => [regWord 0x615#12 y.bits unusedField x.bits]
  | .fill x y z => [regWord 0x617#12 z.bits y.bits x.bits]
  | .spanbit x y => [regWord 0x640#12 y.bits unusedField x.bits]
  | .scanbit x y => [regWord 0x641#12 y.bits unusedField x.bits]
  | .daddc x y z => [regWord 0x642#12 z.bits y.bits x.bits]
  | .dsubc x y z => [regWord 0x643#12 z.bits y.bits x.bits]
  | .dmovt x y => [regWord 0x644#12 y.bits unusedField x.bits]
  | .modac x y z => [regWord 0x645#12 z.bits y.bits x.bits]
  | .condrec x y => [regWord 0x646#12 y.bits unusedField x.bits]
  | .modify x y z => [regWord 0x650#12 z.bits y.bits x.bits]
  | .extract x y z => [regWord 0x651#12 z.bits y.bits x.bits]
  | .modtc x y z => [regWord 0x654#12 z.bits y.bits x.bits]
  | .modpc x y z => [regWord 0x655#12 z.bits y.bits x.bits]
  | .receive x y => [regWord 0x656#12 y.bits unusedField x.bits]
  | .calls x => [regWord 0x660#12 unusedField unusedField x.bits]
  | .send x y z => [regWord 0x662#12 z.bits y.bits x.bits]
  | .sendserv x => [regWord 0x663#12 unusedField unusedField x.bits]
  | .resumprcs x => [regWord 0x664#12 unusedField unusedField x.bits]
  | .schedprcs x => [regWord 0x665#12 unusedField unusedField x.bits]
  | .saveprcs => [regWord 0x666#12 unusedField unusedField unusedField]
  | .condwait x => [regWord 0x668#12 unusedField unusedField x.bits]
  | .wait x => [regWord 0x669#12 unusedField unusedField x.bits]
  | .signal x => [regWord 0x66A#12 unusedField unusedField x.bits]
  | .mark => [regWord 0x66B#12 unusedField unusedField unusedField]
  | .fmark => [regWord 0x66C#12 unusedField unusedField unusedField]
  | .flushreg => [regWord 0x66D#12 unusedField unusedField unusedField]
  | .syncf => [regWord 0x66F#12 unusedField unusedField unusedField]
  | .emul x y z => [regWord 0x670#12 z.bits y.bits x.bits]
  | .ediv x y z => [regWord 0x671#12 z.bits y.bits x.bits]
  | .ldtime x => [regWord 0x673#12 x.bits unusedField unusedField]
  | .cvtir x y => [regWord 0x674#12 y.bits unusedField x.bits]
  | .cvtilr x y => [regWord 0x675#12 y.bits unusedField x.bits]
  | .scalerl x y z => [regWord 0x676#12 z.bits y.bits x.bits]
  | .scaler x y z => [regWord 0x677#12 z.bits y.bits x.bits]
  | .atanr x y z => [regWord 0x680#12 z.bits y.bits x.bits]
  | .logepr x y z => [regWord 0x681#12 z.bits y.bits x.bits]
  | .logr x y z => [regWord 0x682#12 z.bits y.bits x.bits]
  | .remr x y z => [regWord 0x683#12 z.bits y.bits x.bits]
  | .cmpor x y => [regWord 0x684#12 unusedField y.bits x.bits]
  | .cmpr x y => [regWord 0x685#12 unusedField y.bits x.bits]
  | .sqrtr x y => [regWord 0x688#12 y.bits unusedField x.bits]
  | .expr x y => [regWord 0x689#12 y.bits unusedField x.bits]
  | .logbnr x y => [regWord 0x68A#12 y.bits unusedField x.bits]
  | .roundr x y => [regWord 0x68B#12 y.bits unusedField x.bits]
  | .sinr x y => [regWord 0x68C#12 y.bits unusedField x.bits]
  | .cosr x y => [regWord 0x68D#12 y.bits unusedField x.bits]
  | .tanr x y => [regWord 0x68E#12 y.bits unusedField x.bits]
  | .classr x => [regWord 0x68F#12 unusedField unusedField x.bits]
  | .atanrl x y z => [regWord 0x690#12 z.bits y.bits x.bits]
  | .logeprl x y z => [regWord 0x691#12 z.bits y.bits x.bits]
  | .logrl x y z => [regWord 0x692#12 z.bits y.bits x.bits]
  | .remrl x y z => [regWord 0x693#12 z.bits y.bits x.bits]
  | .cmporl x y => [regWord 0x694#12 unusedField y.bits x.bits]
  | .cmprl x y => [regWord 0x695#12 unusedField y.bits x.bits]
  | .sqrtrl x y => [regWord 0x698#12 y.bits unusedField x.bits]
  | .exprl x y => [regWord 0x699#12 y.bits unusedField x.bits]
  | .logbnrl x y => [regWord 0x69A#12 y.bits unusedField x.bits]
  | .roundrl x y => [regWord 0x69B#12 y.bits unusedField x.bits]
  | .sinrl x y => [regWord 0x69C#12 y.bits unusedField x.bits]
  | .cosrl x y => [regWord 0x69D#12 y.bits unusedField x.bits]
  | .tanrl x y => [regWord 0x69E#12 y.bits unusedField x.bits]
  | .classrl x => [regWord 0x69F#12 unusedField unusedField x.bits]
  | .cvtri x y => [regWord 0x6C0#12 y.bits unusedField x.bits]
  | .cvtril x y => [regWord 0x6C1#12 y.bits unusedField x.bits]
  | .cvtzri x y => [regWord 0x6C2#12 y.bits unusedField x.bits]
  | .cvtzril x y => [regWord 0x6C3#12 y.bits unusedField x.bits]
  | .movr x y => [regWord 0x6C9#12 y.bits unusedField x.bits]
  | .movrl x y => [regWord 0x6D9#12 y.bits unusedField x.bits]
  | .movre x y => [regWord 0x6E1#12 y.bits unusedField x.bits]
  | .cpysre x y z => [regWord 0x6E2#12 z.bits y.bits x.bits]
  | .cpyrsre x y z => [regWord 0x6E3#12 z.bits y.bits x.bits]
  | .mulo x y z => [regWord 0x701#12 z.bits y.bits x.bits]
  | .remo x y z => [regWord 0x708#12 z.bits y.bits x.bits]
  | .divo x y z => [regWord 0x70B#12 z.bits y.bits x.bits]
  | .muli x y z => [regWord 0x741#12 z.bits y.bits x.bits]
  | .remi x y z => [regWord 0x748#12 z.bits y.bits x.bits]
  | .modi x y z => [regWord 0x749#12 z.bits y.bits x.bits]
  | .divi x y z => [regWord 0x74B#12 z.bits y.bits x.bits]
  | .divr x y z => [regWord 0x78B#12 z.bits y.bits x.bits]
  | .mulr x y z => [regWord 0x78C#12 z.bits y.bits x.bits]
  | .subr x y z => [regWord 0x78D#12 z.bits y.bits x.bits]
  | .addr x y z => [regWord 0x78F#12 z.bits y.bits x.bits]
  | .divrl x y z => [regWord 0x79B#12 z.bits y.bits x.bits]
  | .mulrl x y z => [regWord 0x79C#12 z.bits y.bits x.bits]
  | .subrl x y z => [regWord 0x79D#12 z.bits y.bits x.bits]
  | .addrl x y z => [regWord 0x79F#12 z.bits y.bits x.bits]

end Sys2Proof
end

