-- ==== Sys2Proof/Machine/State.lean ====
section
/-!
DEFINITION. The machine's state as plain data, the reasons a step can stop, and the state after reset.

The widths and names are those of 10_state.md; INVENTORY.md lists each field with its rule and its reset value.
-/

namespace Sys2Proof.Machine

/-! ### The pieces of the state -/

/-- A local register: a word, or a value nothing has drawn yet, named by the counter and index it was left free at
(R22, R23, R341, U14; log 24). -/
inductive Slot where
  | word (w : Word)
  | free (serial idx : Nat)
deriving DecidableEq, Repr

/-- The sixteen local registers of one frame (R20, R22). -/
abbrev RegSet := Vector Slot 16

/-- A byte of memory that holds byte `lane` of the free word named by `serial` and `idx` (log 3, log 24). -/
structure FreeByte where
  serial : Nat
  idx : Nat
  lane : Nat
deriving DecidableEq, Repr

/-- Memory (R80): the listed bytes and the listed free bytes, in the canonical form of `Memory.wf`. -/
structure Memory where
  cells : List Host.Cell
  holes : List (Nat × FreeByte)
deriving DecidableEq, Repr

/-- What answers at a physical address (R91, R503): RAM, ROM (writes are lost), a device (its answers are not the
processor's), or nothing (a bad access). -/
inductive MemKind where
  | ram | rom | device | bad
deriving DecidableEq, Repr

/-- A value a word of memory had before the stores of the step with counter `serial` (R120, D5). -/
structure OldWord where
  serial : Nat
  word : Slot
deriving DecidableEq, Repr

/-- A range of the platform's memory map (R91). -/
structure MemRange where
  base : Nat
  size : Nat
  kind : MemKind
deriving DecidableEq, Repr

/-- A local register set the chip still holds for an earlier frame (R22). -/
structure CachedFrame where
  frame : Word
  regs : RegSet
deriving DecidableEq, Repr

/-- The arithmetic controls (R30), field by field from bit 0 up; `gap<n>` is the reserved field whose highest bit is n. -/
structure ArithControls where
  /-- condition code, bits 2:0 -/
  cc : BitVec 3
  /-- arithmetic status, bits 6:3 -/
  ast : BitVec 4
  gap7 : BitVec 1
  /-- integer-overflow flag `of`, bit 8 -/
  oflow : Bool
  gap11 : BitVec 3
  /-- integer-overflow mask, bit 12 -/
  om : Bool
  gap14 : BitVec 2
  /-- no imprecise faults, bit 15 -/
  nif : Bool
  /-- floating flags: overflow, underflow, invalid, zero-divide, inexact, bits 16 to 20 -/
  fof : Bool
  fuf : Bool
  fif : Bool
  fzf : Bool
  fxf : Bool
  gap23 : BitVec 3
  /-- floating masks in the same order, bits 24 to 28 -/
  fom : Bool
  fum : Bool
  fim : Bool
  fzm : Bool
  fxm : Bool
  /-- normalizing mode, bit 29 -/
  nm : Bool
  /-- rounding control, bits 31:30 -/
  rc : BitVec 2
deriving DecidableEq, Repr

/-- The five processor states (R54, R575). -/
inductive ProcState where
  | executing | interrupted | idle | idleInterrupted | stopped
deriving DecidableEq, Repr

/-- An instruction breakpoint register (R562). -/
structure Breakpoint where
  addr : Word
  enabled : Bool
deriving DecidableEq, Repr

/-- What the environment does at one point between two instructions (R500, R530, D4): nothing, an interrupt request
with its vector, or a byte another bus agent writes. -/
inductive EnvEvent where
  | quiet
  | interrupt (v : BitVec 8)
  | extWrite (addr : Word) (b : Byte)
deriving DecidableEq, Repr

/-! ### The state -/

/-- The 80960MC (10_state.md). -/
structure State where
  /-- instruction pointer (R27) -/
  ip : Word
  /-- g0 to g15 (R20); g15 is the frame pointer (R21) -/
  globals : Vector Word 16
  /-- r0 to r15 of the current frame (R20, R22) -/
  locals : RegSet
  /-- register sets of earlier frames still on the chip, newest first (R22) -/
  cached : List CachedFrame
  /-- fp0 to fp3 (R46) -/
  fps : Vector Ext 4
  /-- arithmetic controls (R30) -/
  ac : ArithControls
  /-- process controls (R36) -/
  pctl : Word
  /-- trace controls (R42) -/
  tctl : Word
  /-- processor state (R54, R575) -/
  proc : ProcState
  /-- processor controls (R53) -/
  procControls : Word
  /-- segment table address (R582, R545) -/
  segTable : Word
  /-- PRCB address (R52) -/
  prcb : Word
  /-- on-chip copies of PRCB fields (R50, R52, R545) -/
  dispatchPort : Word
  intTable : Word
  intStack : Word
  region3 : Word
  sysProcTable : Word
  faultTable : Word
  /-- interrupt control register (R528) -/
  icr : Word
  /-- breakpoint registers (R562) -/
  bp0 : Breakpoint
  bp1 : Breakpoint
  /-- memory (R80) and the platform's map (R91) -/
  mem : Memory
  memMap : List MemRange
  /-- what the words stored to since the instruction cache was purged held before, by word number (R120, D5) -/
  stale : List (Nat × List OldWord)
  /-- the model's own: a message took the machine out of the modelled scope (R545, D3) -/
  restarted : Bool
  /-- the model's own: trace events of the running instruction (R560) -/
  traced : BitVec 8
  /-- the model's own: what the environment will do (R500) -/
  env : List EnvEvent
  /-- the model's own: the counter that makes free values fresh (log 72) -/
  serial : Nat
deriving DecidableEq, Repr

/-! ### How a step ends -/

/-- The machine stops. -/
inductive Fault where
  /-- The processor is in the stopped state: it executes nothing (R575, R513, U30, U31). Raised by `step`. Safe. -/
  | stopped
  /-- A restart IAC, or a reinitialize IAC into virtual mode, ended the modelled scope: the terminal outcome of D3 (R545).
  Raised by `step`. Safe. -/
  | restart (segTable prcb : Word)
deriving DecidableEq, Repr

/-- The model has no next state for what the program does. -/
inductive Refusal where
  /-- An instruction without a meaning. Raised by `exec`. Safe. -/
  | notModelled (mnemonic : String)
  /-- A process-management instruction in physical mode (R6, R390, U18). Raised by its meaning. Safe. -/
  | processManagement (mnemonic : String)
  /-- `ldphy`, `inspacc`: undefined effect in physical mode (R375, U17). Raised by their meanings. Safe. -/
  | physicalModeUndefined (mnemonic : String)
  /-- A register group that does not start where its size divides (R202, D14, U9). Raised by operand access. Safe. -/
  | registerAlignment
  /-- A reserved bit of an instruction word is 1 (R166, D7, U3). Raised by fetch. Safe. -/
  | reservedBits
  /-- `ret` under return status 0b100 to 0b110 (R344, U15). Raised by `ret`. Safe. -/
  | reservedReturnStatus
  /-- A system-procedure-table entry of type 0b01 or 0b11 (R343). Raised by `calls` and by fault entry. Safe. -/
  | reservedProcedureEntry
  /-- A fault-table entry of type 0b01 or 0b11 (R508). Raised by fault entry. Safe. -/
  | reservedFaultEntry
  /-- An IAC message whose type or effect the spec leaves open (R541). Raised by `synmov`, `synmovl`, `synmovq`. Safe. -/
  | iacUnspecified (type : Nat)
deriving DecidableEq, Repr

/-- The named faults of R501. -/
inductive Exn where
  | trace (events : BitVec 8)
  | invalidOpcode | invalidOperand
  | integerOverflow | zeroDivide
  | fpOverflow | fpUnderflow | fpInvalid | fpZeroDivide | fpInexact | fpReservedEncoding
  | constraintRange | invalidSS
  | invalidSegmentTableEntry | invalidPTDE | invalidPTE
  | length | pageRights
  | badAccess
  | control | dispatch | iac
  | mismatch | contents
  | timeSlice
  | descriptorInvalid
  | notice
deriving DecidableEq, Repr

/-- What a computation before any effect comes to: a value, a fault to raise with nothing written (R500), or a refusal. -/
inductive Eff (α : Type) where
  | ok (a : α)
  | raise (e : Exn)
  | refuse (r : Refusal)
deriving DecidableEq, Repr

/-- How an instruction ends. -/
abbrev Res := Host.Outcome State Fault Refusal

/-! ### Real numbers (R426) -/

/-- The three real formats (R426). -/
inductive FpFormat where
  | real | long | extended
deriving DecidableEq, Repr

/-- What a real encoding denotes: a zero, plus or minus `m * 2^e` with `m` positive, an infinity, or a NaN with its
64-bit significand in extended form (R426). -/
inductive FpNum where
  | zero (neg : Bool)
  | fin (neg : Bool) (m : Nat) (e : Int)
  | inf (neg : Bool)
  | nan (neg : Bool) (sig : BitVec 64)
deriving DecidableEq, Repr

/-- The operand classes of R471. -/
inductive FpClass where
  | zero | denormal | normal | infinity | quietNaN | signalingNaN | reserved
deriving DecidableEq, Repr

/-- A decoded floating-point operand: its sign bit, its class and what it denotes. -/
structure FpOperand where
  neg : Bool
  cls : FpClass
  num : FpNum
deriving DecidableEq, Repr

/-- The exceptions an operation signals (R428): invalid operation, zero-divide, overflow, a tiny result, inexact. -/
structure FpExceptions where
  invalid : Bool := false
  zeroDivide : Bool := false
  overflow : Bool := false
  tiny : Bool := false
  inexact : Bool := false
deriving DecidableEq, Repr

/-! ### Reset (R75, R583) -/

/-- Memory with nothing listed. -/
def Memory.empty : Memory := { cells := [], holes := [] }

/-- AC after reset: not given; zero (log 11). -/
def ArithControls.reset : ArithControls :=
  { cc := 0, ast := 0, gap7 := 0, oflow := false, gap11 := 0, om := false, gap14 := 0, nif := false,
    fof := false, fuf := false, fif := false, fzf := false, fxf := false, gap23 := 0,
    fom := false, fum := false, fim := false, fzm := false, fxm := false, nm := false, rc := 0 }

/-- PC after reset (R583): supervisor, priority 31, interrupted, trace off (log 12). -/
def resetProcessControls : Word := 0x001F2002#32

/-- The platform of the reset state: the reserved top 16 MB is a device, the rest is RAM (R90, R91; log 15). -/
def resetMemMap : List MemRange := [{ base := 0xFF000000, size := 0x1000000, kind := .device }]

/-- The machine right after reset, with an empty memory: every pointer the processor takes from the initial memory image
and the PRCB is the 0 that memory reads as (R75, R582, R583; log 9). `Sys2Proof.Machine.boot` reads them from any memory. -/
def State.reset : State :=
  { ip := 0
    globals := Vector.replicate 16 0
    locals := Vector.replicate 16 (.word 0)
    cached := []
    fps := Vector.replicate 4 0
    ac := ArithControls.reset
    pctl := resetProcessControls
    tctl := 0
    proc := .idleInterrupted
    procControls := 0
    segTable := 0
    prcb := 0
    dispatchPort := 0
    intTable := 0
    intStack := 0
    region3 := 0
    sysProcTable := 0
    faultTable := 0
    icr := 0xFF000000#32
    bp0 := { addr := 0, enabled := false }
    bp1 := { addr := 0, enabled := false }
    mem := Memory.empty
    memMap := resetMemMap
    stale := []
    restarted := false
    traced := 0
    env := []
    serial := 0 }

end Sys2Proof.Machine
end

