-- ==== Sys2Proof/Machine/Flags.lean ====
section
/-!
DEFINITION. The control words: AC as a word and as fields (R30), the fields of PC (R36) and TC (R42), the condition
code's meanings (R31, R290), and the flags each arithmetic family computes.
-/

namespace Sys2Proof.Machine

/-! ### Bits of a word -/

/-- `w` with bit `k` set to `b`. -/
def setBit (w : Word) (k : Nat) (b : Bool) : Word :=
  if b then w ||| (1#32 <<< k) else w &&& ~~~(1#32 <<< k)

/-- The word whose bits selected by `mask` come from `new`, the others from `old` (`modac`, `modpc`, `modtc`, `atmod`,
`modify`). -/
def mergeMask (mask new old : Word) : Word := (new &&& mask) ||| (old &&& ~~~mask)

/-! ### Arithmetic controls -/

/-- AC as the word a program sees (R30). -/
def ArithControls.toWord (a : ArithControls) : Word :=
  a.rc ++ BitVec.ofBool a.nm ++
    BitVec.ofBool a.fxm ++ BitVec.ofBool a.fzm ++ BitVec.ofBool a.fim ++ BitVec.ofBool a.fum ++ BitVec.ofBool a.fom ++
    a.gap23 ++
    BitVec.ofBool a.fxf ++ BitVec.ofBool a.fzf ++ BitVec.ofBool a.fif ++ BitVec.ofBool a.fuf ++ BitVec.ofBool a.fof ++
    BitVec.ofBool a.nif ++ a.gap14 ++ BitVec.ofBool a.om ++ a.gap11 ++ BitVec.ofBool a.oflow ++ a.gap7 ++ a.ast ++ a.cc

/-- AC from a word, every bit kept, the reserved ones as written (R30, R362; log 51). -/
def ArithControls.ofWord (w : Word) : ArithControls :=
  { cc := w.extractLsb' 0 3, ast := w.extractLsb' 3 4, gap7 := w.extractLsb' 7 1, oflow := w.getLsbD 8,
    gap11 := w.extractLsb' 9 3, om := w.getLsbD 12, gap14 := w.extractLsb' 13 2, nif := w.getLsbD 15,
    fof := w.getLsbD 16, fuf := w.getLsbD 17, fif := w.getLsbD 18, fzf := w.getLsbD 19, fxf := w.getLsbD 20,
    gap23 := w.extractLsb' 21 3,
    fom := w.getLsbD 24, fum := w.getLsbD 25, fim := w.getLsbD 26, fzm := w.getLsbD 27, fxm := w.getLsbD 28,
    nm := w.getLsbD 29, rc := w.extractLsb' 30 2 }

/-- Write the condition code. -/
def State.setCc (cc : BitVec 3) (s : State) : State := { s with ac := { s.ac with cc := cc } }

/-- Write the arithmetic status. -/
def State.setStatus (v : BitVec 4) (s : State) : State := { s with ac := { s.ac with ast := v } }

/-! ### Process controls (R36) -/

/-- Trace enable. -/
def State.te (s : State) : Bool := s.pctl.getLsbD 0

/-- Execution mode: supervisor. -/
def State.supervisor (s : State) : Bool := s.pctl.getLsbD 1

/-- The current priority, 0 to 31. -/
def priorityOf (pc : Word) : Nat := (pc.extractLsb' 16 5).toNat

/-- `PC.st` says interrupted (0b01). -/
def interruptedOf (pc : Word) : Bool := pc.extractLsb' 13 2 == 1#2

/-- PC on entering an interrupt handler of priority `p`: state interrupted, supervisor, priority `p`, trace off, and
the process no longer timed (R533; log 6). -/
def interruptControls (pc : Word) (p : Nat) : Word :=
  pc.extractLsb' 21 11 ++ BitVec.ofNat 5 p ++ pc.extractLsb' 15 1 ++ 1#2 ++ pc.extractLsb' 9 4 ++ 0#1 ++
    pc.extractLsb' 2 6 ++ 1#1 ++ 0#1

/-- Write PC.te. -/
def State.setTe (b : Bool) (s : State) : State := { s with pctl := setBit s.pctl 0 b }

/-- Write PC.em. -/
def State.setSupervisor (b : Bool) (s : State) : State := { s with pctl := setBit s.pctl 1 b }

/-! ### Trace controls (R42) and trace events (R560) -/

/-- The mode flags, in the bit positions of the fault subtypes (R501); bit 0 is reserved. -/
def traceModes (tc : Word) : BitVec 8 := tc.extractLsb' 0 8 &&& 0xFE#8

/-- TC with the event flags of `events` set. -/
def recordEvents (tc : Word) (events : BitVec 8) : Word := tc ||| (events.setWidth 32 <<< 16)

/-- The instruction trace event. -/
def evInstruction : BitVec 8 := 0x02#8
/-- The branch trace event. -/
def evBranch : BitVec 8 := 0x04#8
/-- The call trace event. -/
def evCall : BitVec 8 := 0x08#8
/-- The return trace event. -/
def evReturn : BitVec 8 := 0x10#8
/-- The prereturn trace event. -/
def evPrereturn : BitVec 8 := 0x20#8
/-- The supervisor trace event. -/
def evSupervisor : BitVec 8 := 0x40#8
/-- The breakpoint trace event. -/
def evBreakpoint : BitVec 8 := 0x80#8

/-- The running instruction produces a trace event (R560). -/
def State.event (e : BitVec 8) (s : State) : State := { s with traced := s.traced ||| e }

/-! ### Condition code (R31, R290) -/

/-- R290: does condition `m` hold? -/
def condHolds (m cc : BitVec 3) : Bool := if m = 0 then cc == 0 else (cc &&& m) != 0

/-- The condition code of a comparison already decided. -/
def orderCc (lt eq : Bool) : BitVec 3 := if lt then 0b100 else if eq then 0b010 else 0b001

/-- R270: compare two ordinals. -/
def compareOrd (a b : Word) : BitVec 3 := orderCc (decide (a.toNat < b.toNat)) (decide (a = b))

/-- R270: compare two integers. -/
def compareInt (a b : Word) : BitVec 3 := orderCc (decide (a.toInt < b.toInt)) (decide (a = b))

/-- The true (0b010) and false (0b000) of `chkbit`, `scanbit`, ... (R31). -/
def foundCc (b : Bool) : BitVec 3 := if b then 0b010 else 0b000

/-- The 0b0CV of `addc`, `subc` (R31, R213). -/
def carryCc (c v : Bool) : BitVec 3 := 0#1 ++ BitVec.ofBool c ++ BitVec.ofBool v

/-- AC.cc bit 1, the carry in of R213. -/
def State.carry (s : State) : Bool := s.ac.cc.getLsbD 1

/-- R213: sum, carry out and signed overflow of `b + a + c`. -/
def addCarry (a b : Word) (c : Bool) : Word × Bool × Bool :=
  let n := b.toNat + a.toNat + c.toNat
  let r := BitVec.ofNat 32 n
  (r, decide (2 ^ 32 ≤ n), a.getLsbD 31 == b.getLsbD 31 && r.getLsbD 31 != a.getLsbD 31)

/-- R216: difference, carry out (no borrow) and signed overflow of `b - a - 1 + c`. -/
def subCarry (a b : Word) (c : Bool) : Word × Bool × Bool :=
  let n := b.toNat + (~~~a).toNat + c.toNat
  let r := BitVec.ofNat 32 n
  (r, decide (2 ^ 32 ≤ n), b.getLsbD 31 != a.getLsbD 31 && r.getLsbD 31 != b.getLsbD 31)

/-- Does an exact result fit a signed integer of `n + 1` bits? (R210: `-2^n .. 2^n - 1`) -/
def fitsInt (n : Nat) (r : Int) : Bool := decide (-(2 ^ n : Int) ≤ r) && decide (r ≤ 2 ^ n - 1)

end Sys2Proof.Machine
end

