-- ==== Sys2Proof/Machine/Ops.lean ====
section
/-!
DEFINITION. The named operations over memory, registers and frames, and the events they all share: taking a fault,
taking an interrupt, reporting a trace event. The instructions are written over these.
-/

namespace Sys2Proof.Machine

/-! ### Effects -/

/-- Run `f` on the value of `x`, if there is one. -/
def Eff.bind {α β : Type} (x : Eff α) (f : α → Eff β) : Eff β :=
  match x with
  | .ok a => f a
  | .raise e => .raise e
  | .refuse r => .refuse r

/-- `f` of the value of `x`, if there is one. -/
def Eff.map {α β : Type} (f : α → β) (x : Eff α) : Eff β := x.bind fun a => .ok (f a)

/-- The value of `x` where `b` holds, otherwise the fault `e`. -/
def Eff.unlessRaise {α : Type} (b : Bool) (e : Exn) (x : Eff α) : Eff α := if b then .raise e else x

/-! ### Lists with keys in rising order -/

/-- The value at key `k`. -/
def keyGet {α : Type} (k : Nat) : List (Nat × α) → Option α
  | [] => none
  | (k', v) :: l => if k = k' then some v else keyGet k l

/-- Put `v` at key `k`, in its place. -/
def keyPut {α : Type} (k : Nat) (v : α) : List (Nat × α) → List (Nat × α)
  | [] => [(k, v)]
  | (k', v') :: l =>
    if k < k' then (k, v) :: (k', v') :: l
    else if k = k' then (k, v) :: l
    else (k', v') :: keyPut k v l

/-- Remove key `k`. -/
def keyDrop {α : Type} (k : Nat) : List (Nat × α) → List (Nat × α)
  | [] => []
  | (k', v) :: l => if k = k' then keyDrop k l else (k', v) :: keyDrop k l

/-- The keys rise strictly, all of them from `lo` up. -/
def keysRiseFrom {α : Type} (lo : Nat) : List (Nat × α) → Bool
  | [] => true
  | (k, _) :: l => decide (lo ≤ k) && keysRiseFrom (k + 1) l

/-! ### Memory (R80, R81) -/

/-- What a byte that nothing has written reads as (log 14). -/
def unlistedByte : Byte := 0

/-- The value of a free byte. -/
def FreeByte.val (f : FreeByte) : Byte := byteOf (Config.freeWord f.serial f.idx) f.lane

/-- The byte at an address. -/
def Memory.read (m : Memory) (a : Nat) : Byte :=
  match keyGet a m.cells with
  | some b => b
  | none =>
    match keyGet a m.holes with
    | some f => f.val
    | none => unlistedByte

/-- Store a byte, keeping the canonical form. -/
def Memory.write (m : Memory) (a : Nat) (b : Byte) : Memory :=
  { cells := if b = unlistedByte then keyDrop a m.cells else keyPut a b m.cells
    holes := keyDrop a m.holes }

/-- Leave a byte free, keeping the canonical form. -/
def Memory.writeFree (m : Memory) (a : Nat) (f : FreeByte) : Memory :=
  { cells := keyDrop a m.cells, holes := keyPut a f m.holes }

/-- The canonical form: addresses rise strictly and are 32-bit, no listed byte is what an unlisted one reads as, and
no byte is both listed and free. -/
def Memory.wf (m : Memory) : Bool :=
  keysRiseFrom 0 m.cells && keysRiseFrom 0 m.holes &&
    m.cells.all (fun c => decide (c.1 < 2 ^ 32) && c.2 != unlistedByte && (keyGet c.1 m.holes).isNone) &&
    m.holes.all (fun h => decide (h.1 < 2 ^ 32))

/-- The kind of a physical address: the first range that holds it, otherwise RAM (R91). -/
def kindAt (map : List MemRange) (a : Nat) : MemKind :=
  match map.find? (fun r => decide (r.base ≤ a) && decide (a < r.base + r.size)) with
  | some r => r.kind
  | none => .ram

/-- The byte the processor reads at an address (R81, R91). -/
def State.readByte (s : State) (a : Word) : Byte :=
  match kindAt s.memMap a.toNat with
  | .device => Config.deviceByte s.serial a.toNat
  | _ => s.mem.read a.toNat

/-- The word at an address, little-endian (R81). -/
def State.readWord (s : State) (a : Word) : Word :=
  wordOfBytes (s.readByte a) (s.readByte (a + 1)) (s.readByte (a + 2)) (s.readByte (a + 3))

/-- The word at an address as a slot: a free word written whole stays that free word. -/
def State.readSlot (s : State) (a : Word) : Slot :=
  match keyGet a.toNat s.mem.holes with
  | some f =>
    if f.lane = 0 ∧ keyGet (a + 1).toNat s.mem.holes = some { f with lane := 1 } ∧
        keyGet (a + 2).toNat s.mem.holes = some { f with lane := 2 } ∧
        keyGet (a + 3).toNat s.mem.holes = some { f with lane := 3 }
    then .free f.serial f.idx else .word (s.readWord a)
  | none => .word (s.readWord a)

/-- What the word at an address held before each step that stored to it since the last purge, newest first (R120, D5). -/
def State.staleAt (s : State) (a : Word) : List OldWord := (keyGet (a.toNat / 4) s.stale).getD []

/-- The record of old words with what the word at an address holds now, noted once a step. -/
def State.noteOld (s : State) (a : Word) : List (Nat × List OldWord) :=
  if (s.staleAt a).head?.map OldWord.serial = some s.serial then s.stale
  else
    keyPut (a.toNat / 4) ({ serial := s.serial, word := s.readSlot (a &&& 0xFFFFFFFC#32) } :: s.staleAt a) s.stale

/-- Note what a word holds before it is stored to (R120, D5; log 20). -/
def State.markStale (a : Word) (s : State) : State := { s with stale := s.noteOld a }

/-- Store a byte: only RAM keeps it, and no store reports an error (R87, R91, R503). -/
def State.writeByte (a : Word) (b : Byte) (s : State) : State :=
  match kindAt s.memMap a.toNat with
  | .ram => { s.markStale a with mem := s.mem.write a.toNat b }
  | _ => s

/-- Leave a byte of RAM free. -/
def State.writeFreeByte (a : Word) (f : FreeByte) (s : State) : State :=
  match kindAt s.memMap a.toNat with
  | .ram => { s.markStale a with mem := s.mem.writeFree a.toNat f }
  | _ => s

/-- No byte of the `n` at `a` (modulo 2^32, D2) is a bad access (R503). -/
def State.readable (s : State) (a : Word) : Nat → Bool
  | 0 => true
  | n + 1 => kindAt s.memMap a.toNat != .bad && s.readable (a + 1) n

/-- The `n` words from an address up (R82). -/
def State.readWords (s : State) (a : Word) : Nat → List Word
  | 0 => []
  | n + 1 => s.readWord a :: s.readWords (a + 4) n

/-- Read a word, or Machine.BadAccess (R503). -/
def State.loadWord (s : State) (a : Word) : Eff Word :=
  if s.readable a 4 then .ok (s.readWord a) else .raise .badAccess

/-- Read `n` words, or Machine.BadAccess (R503). -/
def State.loadWords (s : State) (a : Word) (n : Nat) : Eff (List Word) :=
  if s.readable a (4 * n) then .ok (s.readWords a n) else .raise .badAccess

/-- Store some bytes from an address up. -/
def State.writeBytes (a : Word) : List Byte → State → State
  | [], s => s
  | b :: bs, s => State.writeBytes (a + 1) bs (s.writeByte a b)

/-- Store a word, little-endian (R81). -/
def State.writeWord (a : Word) (w : Word) (s : State) : State := s.writeBytes a (bytesOfWord w)

/-- Store words at rising addresses (R82). -/
def State.writeWords (a : Word) : List Word → State → State
  | [], s => s
  | w :: ws, s => State.writeWords (a + 4) ws (s.writeWord a w)

/-- Store a word the spec leaves undefined, the free word `idx` of this instruction. -/
def State.writeFreeWord (a : Word) (serial idx : Nat) (s : State) : State :=
  s.writeFreeByte a ⟨serial, idx, 0⟩
    |>.writeFreeByte (a + 1) ⟨serial, idx, 1⟩
    |>.writeFreeByte (a + 2) ⟨serial, idx, 2⟩
    |>.writeFreeByte (a + 3) ⟨serial, idx, 3⟩

/-- Store the word a slot holds. -/
def State.writeSlot (a : Word) (x : Slot) (s : State) : State :=
  match x with
  | .word w => s.writeWord a w
  | .free serial idx => s.writeFreeWord a serial idx

/-- Store slots at rising addresses. -/
def State.writeSlots (a : Word) : List Slot → State → State
  | [], s => s
  | x :: xs, s => State.writeSlots (a + 4) xs (s.writeSlot a x)

/-! ### Registers (R20, R22, R23) -/

/-- The place of a register in its bank. -/
def bankIndex (r : Reg) : Fin 16 := ⟨r.toNat % 16, Nat.mod_lt _ (by decide)⟩

/-- Is it a global register? -/
def isGlobal (r : Reg) : Bool := r.getLsbD 4

/-- The word a slot holds. -/
def Slot.val : Slot → Word
  | .word w => w
  | .free serial idx => Config.freeWord serial idx

/-- A local register as the processor's own mechanisms read it. -/
def State.localReg (s : State) (i : Fin 16) : Word := (s.locals[i]).val

/-- A register as an instruction's operand reads it: r2 of the current frame is any value (R23, D9; log 23). -/
def State.readReg (s : State) (r : Reg) : Word :=
  if isGlobal r then s.globals[bankIndex r]
  else if r = 2#5 then Config.ripRead s.serial
  else s.localReg (bankIndex r)

/-- Write a register (R26). -/
def State.setReg (r : Reg) (v : Word) (s : State) : State :=
  if isGlobal r then { s with globals := s.globals.set (bankIndex r) v }
  else { s with locals := s.locals.set (bankIndex r) (.word v) }

/-- Write a local register's slot. -/
def State.setLocal (i : Fin 16) (x : Slot) (s : State) : State := { s with locals := s.locals.set i x }

/-- Write consecutive registers from `r` up (R82). -/
def State.setRegs (r : Reg) : List Word → State → State
  | [], s => s
  | w :: ws, s => State.setRegs (r + 1) ws (s.setReg r w)

/-- The `n` registers from `r` up (R26, R82). -/
def State.readRegs (s : State) (r : Reg) : Nat → List Word
  | 0 => []
  | n + 1 => s.readReg r :: s.readRegs (r + 1) n

/-- A register group must start where its size divides (R202, D14). -/
def aligned {α : Type} (n : Nat) (r : Reg) (x : Eff α) : Eff α :=
  if Reg.startsGroup n r then x else .refuse .registerAlignment

/-- The stack pointer, r1 (R21). -/
def State.sp (s : State) : Word := s.localReg 1

/-- The frame address: g15 with its low six bits taken as zero (R24). -/
def State.frameBase (s : State) : Word := s.globals[(15 : Fin 16)] &&& 0xFFFFFFC0#32

/-- Move past the instruction (R27, R134). -/
def State.advance (n : Word) (s : State) : State := { s with ip := s.ip + n }

/-- Go to a target, whose low two bits are cleared (R282, D19). -/
def State.goto (target : Word) (s : State) : State := { s with ip := target &&& 0xFFFFFFFC#32 }

/-- The first 64-byte boundary at or above an address (R340). -/
def roundUp64 (a : Word) : Word := (a + 63#32) &&& 0xFFFFFFC0#32

/-! ### Frames (R22, R340, R344) -/

/-- Write a register set to its frame: four quad-word stores (R22, R346). -/
def State.flushFrame (f : CachedFrame) (s : State) : State := s.writeSlots f.frame f.regs.toList

/-- How many earlier frames the chip holds beside the current set (R22: four sets). -/
def cacheDepth : Nat := 3

/-- With `n` sets of `l` to be kept, flush the older ones, oldest first. -/
def State.flushBeyond (n : Nat) : List CachedFrame → State → State
  | [], s => s
  | f :: l, s =>
    match n with
    | 0 => (State.flushBeyond 0 l s).flushFrame f
    | n + 1 => State.flushBeyond n l s

/-- The registers of a new frame: r0 and r1 as the call sets them, the rest unspecified (R340, R341, R23, U14). -/
def newLocals (serial : Nat) (r0 r1 : Word) : RegSet :=
  Vector.ofFn fun i => if i.val = 0 then .word r0 else if i.val = 1 then .word r1 else .free serial i.val

/-- The part every call, fault and interrupt shares (R340): the return address into r2 of the calling frame, that
frame's set kept on the chip (the oldest flushed when no set is free), a new set, fp and sp. -/
def State.enterFrame (returnIp base r0 : Word) (s : State) : State :=
  let caller : CachedFrame := { frame := s.frameBase, regs := s.locals.set 2 (.word returnIp) }
  let kept := caller :: s.cached
  let t := s.flushBeyond cacheDepth kept
  { t with
    cached := kept.take cacheDepth
    locals := newLocals s.serial r0 (base + 64#32)
    globals := t.globals.set 15 base }

/-- The set of a frame among the cached ones, and the older ones after it (log 25). -/
def findFrame (frame : Word) : List CachedFrame → Option (RegSet × List CachedFrame)
  | [] => none
  | f :: l => if f.frame = frame then some (f.regs, l) else findFrame frame l

/-- A register set read from a frame in memory. -/
def State.reloadFrame (s : State) (frame : Word) : RegSet :=
  Vector.ofFn fun i => s.readSlot (frame + BitVec.ofNat 32 (4 * i.val))

/-- `local_return` of R344: the previous frame's set becomes current, reloaded if the chip does not hold it, and the
ip is its r2. -/
def State.localReturn (s : State) : Eff State :=
  let frame := s.localReg 0 &&& 0xFFFFFFC0#32
  let back (regs : RegSet) (cached : List CachedFrame) : State :=
    ({ s with
        globals := s.globals.set 15 frame
        locals := regs
        cached := cached }).goto (regs[(2 : Fin 16)]).val
  match findFrame frame s.cached with
  | some (regs, older) => .ok (back regs older)
  | none =>
    if s.readable frame 64 then .ok (back (s.reloadFrame frame) s.cached) else .raise .badAccess

/-! ### System procedure table (R58, R343, R509) -/

/-- Where a call through the system procedure table goes: its target, the stack address the new frame starts from, and
the trace-control flag of a switch from user to supervisor mode, if that happens. -/
structure ProcedureCall where
  target : Word
  stack : Word
  switch : Option Bool
deriving DecidableEq, Repr

/-- R343, R58: entry `k` of the system procedure table. -/
def State.systemProcedure (s : State) (k : Nat) : Eff ProcedureCall :=
  if 259 < k then .raise .length
  else
    (s.loadWord (s.sysProcTable + BitVec.ofNat 32 (48 + 4 * k))).bind fun entry =>
      if entry.extractLsb' 0 2 = 0#2 ∨ s.supervisor = true then
        .ok { target := entry, stack := s.sp, switch := none }
      else if entry.extractLsb' 0 2 = 2#2 then
        (s.loadWord (s.sysProcTable + 12#32)).map fun ssp =>
          { target := entry, stack := ssp &&& 0xFFFFFFFC#32, switch := some (ssp.getLsbD 0) }
      else .refuse .reservedProcedureEntry

/-! ### Interrupts (R525 to R533) -/

/-- `interrupt_entry` of R533 for vector `v`, returning to `returnIp`. -/
def State.interruptEntry (v : BitVec 8) (returnIp : Word) (s : State) : Eff State :=
  (s.loadWord (s.intTable + 4#32 + 4#32 * v.setWidth 32)).map fun handler =>
    let nsp := roundUp64 (if interruptedOf s.pctl then s.sp else s.intStack)
    let nfp := roundUp64 (nsp + 16#32)
    let t := s.writeWord (nfp - 16#32) s.pctl
      |>.writeWord (nfp - 12#32) s.ac.toWord
      |>.writeWord (nfp - 8#32) (v.setWidth 32)
    let u := t.enterFrame returnIp nfp (s.frameBase ||| 7#32)
    { u.goto handler with
      pctl := interruptControls s.pctl (v.toNat / 8)
      proc := match s.proc with
        | .executing => .interrupted
        | .idle => .idleInterrupted
        | p => p }

/-- R530: is a vector served at once at the current priority? -/
def State.servesNow (s : State) (v : BitVec 8) : Bool :=
  decide (priorityOf s.pctl < v.toNat / 8) || v.toNat / 8 == 31

/-- The word of the pending-interrupts field that holds vector `v` (R527). -/
def State.pendingWordAddr (s : State) (v : BitVec 8) : Word :=
  s.intTable + 4#32 + 4#32 * BitVec.ofNat 32 (v.toNat / 32)

/-- R527: post an interrupt that cannot be served. -/
def State.postInterrupt (v : BitVec 8) (s : State) : Eff State :=
  (s.loadWord s.intTable).bind fun priorities =>
    (s.loadWord (s.pendingWordAddr v)).map fun pending =>
      s.writeWord s.intTable (setBit priorities (v.toNat / 8) true)
        |>.writeWord (s.pendingWordAddr v) (setBit pending (v.toNat % 32) true)

/-- R530: an interrupt request arrives between two instructions; vectors 0 to 7 do not exist (R525). -/
def State.interruptArrives (v : BitVec 8) (s : State) : Eff State :=
  if v.toNat < 8 then .ok s
  else if s.servesNow v then s.interruptEntry v s.ip else s.postInterrupt v

/-- The highest bit set among the low `n` bits of a word. -/
def highestBelow (w : Word) : Nat → Option Nat
  | 0 => none
  | n + 1 => if w.getLsbD n then some n else highestBelow w n

/-- The vectors of priority `p` pending in the word that holds them, in rising order (R527). -/
def pendingVectors (pending : Word) (p : Nat) : List Nat :=
  (List.range 8).filterMap fun i => if pending.getLsbD (8 * p % 32 + i) then some (8 * p + i) else none

/-- One of several pending vectors; which, among two or more, is not stated (log 8). -/
def pickPending (serial : Nat) (l : List Nat) : Option Nat :=
  match l with
  | [] => none
  | [v] => some v
  | v :: rest => some ((v :: rest).getD (Config.pendingPick serial % (v :: rest).length) v)

/-- "Checks pending interrupts" (R527): the highest-priority pending interrupt is served if it qualifies. -/
def State.checkPending (s : State) : Eff State :=
  (s.loadWord s.intTable).bind fun priorities =>
    match highestBelow priorities 32 with
    | none => .ok s
    | some p =>
      if priorityOf s.pctl < p ∨ p = 31 then
        (s.loadWord (s.pendingWordAddr (BitVec.ofNat 8 (8 * p)))).bind fun pending =>
          match pickPending s.serial (pendingVectors pending p) with
          | none => .ok s
          | some v =>
            let left := setBit pending (v % 32) false
            let t := s.writeWord (s.pendingWordAddr (BitVec.ofNat 8 v)) left
            let u := if (pendingVectors left p).isEmpty then t.writeWord s.intTable (setBit priorities p false) else t
            u.interruptEntry (BitVec.ofNat 8 v) u.ip
      else .ok s

/-! ### Taking a fault (R501, R507 to R513) -/

/-- The type number of a fault (R501). -/
def Exn.typeNumber : Exn → Nat
  | .trace _ => 1
  | .invalidOpcode | .invalidOperand => 2
  | .integerOverflow | .zeroDivide => 3
  | .fpOverflow | .fpUnderflow | .fpInvalid | .fpZeroDivide | .fpInexact | .fpReservedEncoding => 4
  | .constraintRange | .invalidSS => 5
  | .invalidSegmentTableEntry | .invalidPTDE | .invalidPTE => 6
  | .length | .pageRights => 7
  | .badAccess => 8
  | .control | .dispatch | .iac => 9
  | .mismatch | .contents => 10
  | .timeSlice => 12
  | .descriptorInvalid => 13
  | .notice => 14

/-- The subtype value of a fault (R501). -/
def Exn.subtype : Exn → BitVec 8
  | .trace events => events
  | .invalidOpcode => 1
  | .invalidOperand => 4
  | .integerOverflow => 1
  | .zeroDivide => 2
  | .fpOverflow => 0x01
  | .fpUnderflow => 0x02
  | .fpInvalid => 0x04
  | .fpZeroDivide => 0x08
  | .fpInexact => 0x10
  | .fpReservedEncoding => 0x20
  | .constraintRange => 1
  | .invalidSS => 2
  | .invalidSegmentTableEntry => 1
  | .invalidPTDE => 2
  | .invalidPTE => 3
  | .length => 0x02
  | .pageRights => 0x04
  | .badAccess => 1
  | .control => 1
  | .dispatch => 2
  | .iac => 3
  | .mismatch => 1
  | .contents => 2
  | .timeSlice => 1
  | .descriptorInvalid => 1
  | .notice => 1

/-- The fault type word of the record: type in bits 23:16, subtype in bits 7:0 (R512). -/
def Exn.typeWord (e : Exn) : Word := 0#8 ++ BitVec.ofNat 8 e.typeNumber ++ 0#8 ++ e.subtype

/-- The type word of an override fault's record: type 0, and as its subtype the type and subtype of the second fault
(R501, R512; log 5). -/
def Exn.overrideWord (e : Exn) : Word := 0#16 ++ BitVec.ofNat 8 e.typeNumber ++ e.subtype

/-- The handler of fault type `t` (R508, R509): a local procedure, or one of the system procedure table. Both words of
the table entry are read; the second is not used in physical mode (R512; log 4). -/
def State.faultHandler (s : State) (t : Nat) : Eff ProcedureCall :=
  let entryAt := s.faultTable + BitVec.ofNat 32 (8 * t)
  (s.loadWord entryAt).bind fun entry =>
    (s.loadWord (entryAt + 4#32)).bind fun _ =>
      if entry.extractLsb' 0 2 = 0#2 then .ok { target := entry, stack := s.sp, switch := none }
      else if entry.extractLsb' 0 2 = 2#2 then s.systemProcedure (entry.toNat / 4)
      else .refuse .reservedFaultEntry

/-- The `n` words of a fault record from `a` up that are not defined, each a free value of its own (R512, D18; log 3). -/
def State.writeRecordTail (a : Word) (serial : Nat) : Nat → State → State
  | 0, s => s
  | n + 1, s => State.writeRecordTail (a + 4#32) serial n (s.writeFreeWord a serial (16 + n))

/-- What a fault record tells of the fault, or of two of them: the type word, and the override word, which only the record
of an override fault defines (R512, R513; log 5). -/
structure FaultReport where
  typeWord : Word
  override : Option Word
deriving DecidableEq, Repr

/-- The report of one fault (R512). -/
def Exn.report (e : Exn) : FaultReport := { typeWord := e.typeWord, override := none }

/-- The report of the fault `second` met on the way to the handler of `first` (R513). -/
def Exn.overrideReport (first second : Exn) : FaultReport :=
  { typeWord := second.overrideWord, override := some first.typeWord }

/-- The free index of the override word where it is not defined, beside 16 to 21 of the six words below it (log 3). -/
def overrideIndex : Nat := 22

/-- The 44 bytes of a fault record ending at `top` (R512). -/
def State.writeFaultRecord (top faultIp : Word) (r : FaultReport) (s : State) : State :=
  s.writeWord (top - 4#32) faultIp
    |>.writeWord (top - 8#32) r.typeWord
    |>.writeWord (top - 12#32) s.ac.toWord
    |>.writeWord (top - 16#32) s.pctl
    |>.writeSlot (top - 20#32) ((r.override.map Slot.word).getD (.free s.serial overrideIndex))
    |>.writeRecordTail (top - 44#32) s.serial 6

/-- Is a prereturn trace owed to the frame a fault interrupts (R512, R560)? Not defined beyond its modes (log 53). -/
def State.prereturnOwed (s : State) : Bool :=
  s.te && (traceModes s.tctl &&& evPrereturn) != 0 && Config.freeBit s.serial 64

/-- `fault_entry` of R512: fault type `t`, what the record reports, the faulting and the saved address. -/
def State.faultEntry (t : Nat) (r : FaultReport) (faultIp savedIp : Word) (s : State) : Eff State :=
  (s.faultHandler t).map fun h =>
    let nfp := roundUp64 (roundUp64 h.stack + 44#32)
    let r0 := s.frameBase ||| 1#32 ||| (if s.prereturnOwed then 8#32 else 0#32)
    let u := (s.writeFaultRecord nfp faultIp r).enterFrame savedIp nfp r0
    let v := u.goto h.target
    let w := match h.switch with
      | some te => (v.setSupervisor true).setTe te
      | none => v
    { (if t = 1 then w.setTe false else w) with traced := 0 }

/-- The free index of the word that marks a system error. -/
def systemErrorIndex : Nat := 33

/-- The machine as a fault met while an override fault is handled finds it: PC.ref is set (R513, R36; log 5). -/
def State.refault (s : State) : State := { s with pctl := setBit s.pctl 12 true }

/-- R513, step 3: PC.ref is set, the system-error record is stored in the PRCB and its mark beside it, and the
system-error interrupt, vector 248, is taken; if that cannot be entered, the stopped state (step 4; log 5). -/
def State.systemError (r : FaultReport) (faultIp savedIp : Word) (s : State) : State :=
  let t := s.refault.writeFaultRecord (s.prcb + 172#32) faultIp r
    |>.writeFreeWord (s.prcb + 72#32) s.serial systemErrorIndex
  match t.interruptEntry 248#8 savedIp with
  | .ok u => { u with traced := 0 }
  | _ => { t with proc := .stopped, traced := 0 }

/-- A fault is raised: its handler is entered; a second fault on the way is an override fault, a third the system
error (R500, R512, R513; log 1, log 5). -/
def takeFault (e : Exn) (faultIp savedIp : Word) (s : State) : Res :=
  match s.faultEntry e.typeNumber e.report faultIp savedIp with
  | .ok t => .next t
  | .refuse r => .refused r
  | .raise second =>
    match s.faultEntry 0 (e.overrideReport second) faultIp savedIp with
    | .ok t => .next t
    | .refuse r => .refused r
    | .raise third => .next (s.systemError (e.overrideReport third) faultIp savedIp)

/-- Go on with what a computation gives; a fault it raises has written nothing and is saved at the instruction
itself (R500, R512; log 2). -/
def State.commitThen {α : Type} (s : State) (x : Eff α) (k : α → Res) : Res :=
  match x with
  | .ok a => k a
  | .raise e => takeFault e s.ip s.ip s
  | .refuse r => .refused r

/-- An instruction whose effect is `x`. -/
def State.commit (s : State) (x : Eff State) : Res := s.commitThen x .next

/-- A fault after the instruction at `faultIp` has completed in state `t`: saved at the next instruction (R512). -/
def faultAfter (e : Exn) (faultIp : Word) (t : State) : Res := takeFault e faultIp t.ip t

/-- A trace fault for `events`: their TC event flags and PC.tfp are set (R560). -/
def raiseTrace (events : BitVec 8) (faultIp savedIp : Word) (s : State) : Res :=
  takeFault (.trace events) faultIp savedIp
    { s with tctl := recordEvents s.tctl events, pctl := setBit s.pctl 10 true }

/-- The end of the instruction at `faultIp` (R560): its trace events, under the modes `modes` that stood before it. -/
def traceFinish (modes : BitVec 8) (faultIp : Word) (s : State) : Res :=
  if s.te = true ∧ s.traced &&& modes ≠ 0 then
    raiseTrace (s.traced &&& modes) faultIp s.ip { s with serial := s.serial + 1 }
  else .next { s with traced := 0 }

/-- `integer_overflow` of R210, the destination already written and the ip past the instruction (D16; log 33). -/
def integerOverflow (faultIp : Word) (t : State) : Res :=
  if t.ac.om then .next { t with ac := { t.ac with oflow := true } } else faultAfter .integerOverflow faultIp t

/-- R527: go on with the state after an instruction that makes the processor look at pending interrupts. A bad access of that
look is a fault of its own after the instruction, at the address the processor goes on at: the model's choice (log 84). -/
def thenCheckPending (t : State) : Res :=
  match t.checkPending with
  | .ok u => .next u
  | .raise e => takeFault e t.ip t.ip t
  | .refuse r => .refused r

end Sys2Proof.Machine
end

