-- ==== Sys2Proof/Machine/Operands.lean ====
section
/-!
DEFINITION. Operand forms: REG and COBR sources, destinations, memory operands, branch targets (R138 to R152).
-/

namespace Sys2Proof.Machine

/-- The size of the register group that holds `n` words: 3 words start where 4 do (R202). -/
def groupSize (n : Nat) : Nat := if n = 3 then 4 else n

/-- A literal as a word (R138). -/
def literal (n : BitVec 5) : Word := n.setWidth 32

/-- A one-word source (R138, R142). -/
def srcVal (s : State) : Src → Word
  | .reg r => s.readReg r
  | .lit n => literal n

/-- A source of `n` words: a register group, or a literal extended with zeros (R138, R202). -/
def srcWords (s : State) (n : Nat) : Src → Eff (List Word)
  | .reg r => aligned (groupSize n) r (.ok (s.readRegs r n))
  | .lit v => .ok (literal v :: List.replicate (n - 1) 0#32)

/-- The src/dst field read as a source (R140). -/
def dstVal (s : State) : Dst → Word
  | .reg r => s.readReg r
  | .lit n => literal n

/-- A destination that is a literal: an invalid opcode fault, or an undefined value in some register (R140, U2;
log 31). -/
def strayWrite (s : State) : Eff State :=
  if Config.reservedDestFaults s.serial then .raise .invalidOpcode
  else .ok (s.setReg (Config.strayRegister s.serial) (Config.freeWord s.serial 101))

/-- Write a one-word result (R140). -/
def dstWrite (d : Dst) (v : Word) (s : State) : Eff State :=
  match d with
  | .reg r => .ok (s.setReg r v)
  | .lit _ => strayWrite s

/-- Write a result of several words to a register group (R140, R202). -/
def dstWriteWords (d : Dst) (ws : List Word) (s : State) : Eff State :=
  match d with
  | .reg r => aligned (groupSize ws.length) r (.ok (s.setRegs r ws))
  | .lit _ => strayWrite s

/-- A REG instruction that writes one word. -/
def State.result (s : State) (d : Dst) (v : Word) : Res :=
  s.commit ((dstWrite d v s).map (State.advance 4#32))

/-- A REG instruction that writes one word and the condition code. -/
def State.resultCc (s : State) (d : Dst) (v : Word) (cc : BitVec 3) : Res :=
  s.commit ((dstWrite d v s).map fun t => (t.setCc cc).advance 4#32)

/-- A REG instruction that writes several words. -/
def State.resultWords (s : State) (d : Dst) (ws : List Word) : Res :=
  s.commit ((dstWriteWords d ws s).map (State.advance 4#32))

/-- A REG instruction that writes one word and may then overflow (R210). -/
def State.resultOverflow (s : State) (d : Dst) (v : Word) (overflow : Bool) : Res :=
  s.commitThen (dstWrite d v s) fun t =>
    if overflow then integerOverflow s.ip (t.advance 4#32) else .next (t.advance 4#32)

/-- A REG instruction that only writes the condition code. -/
def State.resultOnlyCc (s : State) (cc : BitVec 3) : Res := .next ((s.setCc cc).advance 4#32)

/-! ### Memory operands (R149, R150, R151) -/

/-- R151: the index times the scale. -/
def scaled (sc : Scale) (w : Word) : Word :=
  match sc with
  | .x1 => w
  | .x2 => w <<< 1
  | .x4 => w <<< 2
  | .x8 => w <<< 3
  | .x16 => w <<< 4

/-- R150: the effective address. -/
def effectiveAddress (s : State) : MemOp → Word
  | .offset off => off.setWidth 32
  | .baseOffset b off => s.readReg b + off.setWidth 32
  | .base b => s.readReg b
  | .ipDisp d => s.ip + d + 8#32
  | .baseIndex b i sc => s.readReg b + scaled sc (s.readReg i)
  | .disp d => d
  | .baseDisp b d => s.readReg b + d
  | .indexDisp i sc d => scaled sc (s.readReg i) + d
  | .baseIndexDisp b i sc d => s.readReg b + scaled sc (s.readReg i) + d

/-- R134: the length of a MEM instruction. -/
def memLength : MemOp → Word
  | .offset _ => 4#32
  | .baseOffset _ _ => 4#32
  | .base _ => 4#32
  | .ipDisp _ => 8#32
  | .baseIndex _ _ _ => 4#32
  | .disp _ => 8#32
  | .baseDisp _ _ => 8#32
  | .indexDisp _ _ _ => 8#32
  | .baseIndexDisp _ _ _ _ => 8#32

/-! ### Branches (R143, R146, R560) -/

/-- R146: the target of a CTRL instruction. -/
def ctrlTarget (ip : Word) (disp : BitVec 22) : Word := ip + (disp ++ 0#2).signExtend 32

/-- R143: the target of a COBR instruction. -/
def cobrTarget (ip : Word) (disp : BitVec 11) : Word := ip + (disp ++ 0#2).signExtend 32

/-- A taken branch, with its trace event (R560). -/
def State.branch (target : Word) (s : State) : State := { s.event evBranch with ip := target }

/-- A branch if `taken`, otherwise the next instruction. -/
def State.branchIf (taken : Bool) (target : Word) (s : State) : State :=
  if taken then s.branch target else s.advance 4#32

end Sys2Proof.Machine
end

