-- ==== Sys2Proof/Machine/Arithmetic.lean ====
section
/-! DEFINITION. Integer and ordinal arithmetic, shifts and rotate (41_arithmetic.md). -/

namespace Sys2Proof.Machine

/-- An ordinal operation on two words (R210). -/
def ordinalOp (s : State) (src1 src2 : Src) (dst : Dst) (f : Word → Word → Word) : Res :=
  s.result dst (f (srcVal s src1) (srcVal s src2))

/-- An integer operation with exact result `f val1 val2`: the low word is written, then overflow is signalled (R210). -/
def integerOp (s : State) (src1 src2 : Src) (dst : Dst) (f : Int → Int → Int) : Res :=
  let r := f (srcVal s src1).toInt (srcVal s src2).toInt
  s.resultOverflow dst (BitVec.ofInt 32 r) (!fitsInt 31 r)

/-- Arithmetic.ZeroDivide with the destination unchanged when the divisor is 0, otherwise `k` (R210). -/
def unlessZero (s : State) (divisor : Word) (k : Res) : Res :=
  if divisor = 0#32 then takeFault .zeroDivide s.ip s.ip s else k

/-! ### Add and subtract -/

/-- `addo` (R211). -/
def execAddo (src1 src2 : Src) (dst : Dst) (s : State) : Res := ordinalOp s src1 src2 dst fun a b => b + a
/-- `addi` (R212). -/
def execAddi (src1 src2 : Src) (dst : Dst) (s : State) : Res := integerOp s src1 src2 dst fun a b => b + a
/-- `addc` (R213). -/
def execAddc (src1 src2 : Src) (dst : Dst) (s : State) : Res :=
  let r := addCarry (srcVal s src1) (srcVal s src2) s.carry
  s.resultCc dst r.1 (carryCc r.2.1 r.2.2)
/-- `subo` (R214). -/
def execSubo (src1 src2 : Src) (dst : Dst) (s : State) : Res := ordinalOp s src1 src2 dst fun a b => b - a
/-- `subi` (R215). -/
def execSubi (src1 src2 : Src) (dst : Dst) (s : State) : Res := integerOp s src1 src2 dst fun a b => b - a
/-- `subc` (R216). -/
def execSubc (src1 src2 : Src) (dst : Dst) (s : State) : Res :=
  let r := subCarry (srcVal s src1) (srcVal s src2) s.carry
  s.resultCc dst r.1 (carryCc r.2.1 r.2.2)

/-! ### Multiply, divide, remainder, modulo -/

/-- `mulo` (R217). -/
def execMulo (src1 src2 : Src) (dst : Dst) (s : State) : Res := ordinalOp s src1 src2 dst fun a b => b * a
/-- `muli` (R218). -/
def execMuli (src1 src2 : Src) (dst : Dst) (s : State) : Res := integerOp s src1 src2 dst fun a b => b * a
/-- `emul` (R219). -/
def execEmul (src1 src2 : Src) (dst : Dst) (s : State) : Res :=
  let r := (srcVal s src2).toNat * (srcVal s src1).toNat
  s.resultWords dst [BitVec.ofNat 32 r, BitVec.ofNat 32 (r / 2 ^ 32)]
/-- `divo` (R220). -/
def execDivo (src1 src2 : Src) (dst : Dst) (s : State) : Res :=
  unlessZero s (srcVal s src1) (ordinalOp s src1 src2 dst fun a b => b / a)
/-- `divi` (R221): truncating; only -2^31 / -1 overflows. -/
def execDivi (src1 src2 : Src) (dst : Dst) (s : State) : Res :=
  unlessZero s (srcVal s src1) (integerOp s src1 src2 dst fun a b => b.tdiv a)
/-- `ediv` (R222): remainder, then quotient; a quotient of more than 32 bits is an undefined word (U10; log 35). A literal
destination is looked at before the divisor here, after it in the other divisions: an order of the model's (log 80). -/
def execEdiv (src1 src2 : Src) (dst : Dst) (s : State) : Res :=
  s.commitThen ((srcWords s 2 src2).bind fun ws => (dstWriteWords dst ws s).map fun _ => ws) fun ws =>
    let d := srcVal s src1
    let n := (ws.getD 1 0 ++ ws.getD 0 0).toNat
    unlessZero s d (s.resultWords dst [BitVec.ofNat 32 (n % d.toNat),
      if n / d.toNat < 2 ^ 32 then BitVec.ofNat 32 (n / d.toNat) else Config.freeWord s.serial 102])
/-- `remo` (R223). -/
def execRemo (src1 src2 : Src) (dst : Dst) (s : State) : Res :=
  unlessZero s (srcVal s src1) (ordinalOp s src1 src2 dst fun a b => b % a)
/-- `remi` (R224): the sign of the dividend; the overflow is that of the quotient. -/
def execRemi (src1 src2 : Src) (dst : Dst) (s : State) : Res :=
  let a := (srcVal s src1).toInt
  let b := (srcVal s src2).toInt
  unlessZero s (srcVal s src1) (s.resultOverflow dst (BitVec.ofInt 32 (b.tmod a)) (!fitsInt 31 (b.tdiv a)))
/-- `modi` (R225): 0 or the sign of the divisor; never overflows. -/
def execModi (src1 src2 : Src) (dst : Dst) (s : State) : Res :=
  unlessZero s (srcVal s src1)
    (s.result dst (BitVec.ofInt 32 ((srcVal s src2).toInt.fmod (srcVal s src1).toInt)))

/-! ### Shifts and rotate: `src1` is the count -/

/-- `shlo` (R226). -/
def execShlo (src1 src2 : Src) (dst : Dst) (s : State) : Res :=
  ordinalOp s src1 src2 dst fun n v => if 32 ≤ n.toNat then 0#32 else v <<< n.toNat
/-- `shro` (R227). -/
def execShro (src1 src2 : Src) (dst : Dst) (s : State) : Res :=
  ordinalOp s src1 src2 dst fun n v => if 32 ≤ n.toNat then 0#32 else v >>> n.toNat
/-- `shli` (R228): an undefined result when it overflows (U11; log 34). -/
def execShli (src1 src2 : Src) (dst : Dst) (s : State) : Res :=
  let r := (srcVal s src2).toInt * 2 ^ min (srcVal s src1).toNat 32
  s.resultOverflow dst (if fitsInt 31 r then BitVec.ofInt 32 r else Config.freeWord s.serial 103) (!fitsInt 31 r)
/-- `shri` (R229): rounds toward minus infinity. -/
def execShri (src1 src2 : Src) (dst : Dst) (s : State) : Res :=
  ordinalOp s src1 src2 dst fun n v => BitVec.ofInt 32 (v.toInt.fdiv (2 ^ min n.toNat 32))
/-- `shrdi` (R230): rounds toward zero. -/
def execShrdi (src1 src2 : Src) (dst : Dst) (s : State) : Res :=
  ordinalOp s src1 src2 dst fun n v => BitVec.ofInt 32 (v.toInt.tdiv (2 ^ min n.toNat 32))
/-- `rotate` (R231): left, by the count modulo 32. -/
def execRotate (src1 src2 : Src) (dst : Dst) (s : State) : Res :=
  ordinalOp s src1 src2 dst fun n v => v <<< (n.toNat % 32) ||| v >>> (32 - n.toNat % 32)

end Sys2Proof.Machine
end

