-- ==== Sys2Proof/Machine/CallReturn.lean ====
section
/-! DEFINITION. Call, return and the register cache (44_call_return.md). -/

namespace Sys2Proof.Machine

/-- `do_call` of R340: a new frame at `base` with return status `status`, and a call trace event (R560). -/
def State.doCall (target base status len : Word) (s : State) : State :=
  ((s.enterFrame (s.ip + len) base (s.frameBase ||| status)).event evCall).goto target

/-- `call` (R341). -/
def execCall (disp : BitVec 22) (s : State) : Res :=
  .next (s.doCall (ctrlTarget s.ip disp) (roundUp64 s.sp) 0#32 4#32)

/-- `callx` (R342). -/
def execCallx (m : MemOp) (s : State) : Res :=
  .next (s.doCall (effectiveAddress s m) (roundUp64 s.sp) 0#32 (memLength m))

/-- A call to a procedure of the system procedure table; a switch to supervisor mode remembers PC.te in the return
status and is a supervisor trace event (R343, R560). -/
def State.callSystem (h : ProcedureCall) (s : State) : State :=
  match h.switch with
  | none => s.doCall h.target (roundUp64 h.stack) 0#32 4#32
  | some te =>
    ((((s.doCall h.target (roundUp64 h.stack) (2#32 ||| BitVec.setWidth 32 (BitVec.ofBool s.te)) 4#32).setSupervisor
      true).setTe te).event evSupervisor)

/-- `calls` (R343). -/
def execCalls (src : Src) (s : State) : Res :=
  s.commit ((s.systemProcedure (srcVal s src).toNat).map fun h => s.callSystem h)

/-! ### Return (R344) -/

/-- The saved process and arithmetic controls of the record below the current frame. -/
def State.savedControls (s : State) : Eff (Word × Word) :=
  (s.loadWord (s.frameBase - 16#32)).bind fun pc => (s.loadWord (s.frameBase - 12#32)).map fun ac => (pc, ac)

/-- Return from a fault or interrupt handler: AC is restored, PC too in supervisor mode. A return that turns tracing on
is not itself traced (log 53). A return from a fault handler leaves the processor state as it is, whatever PC.st it restores: the
model's choice (log 86). -/
def State.handlerReturn (s : State) : Eff State :=
  s.savedControls.bind fun saved =>
    s.localReturn.map fun t =>
      { t with
        ac := ArithControls.ofWord saved.2
        pctl := if s.supervisor then saved.1 else s.pctl
        traced := if s.te then t.traced else 0 }

/-- Return from a supervisor call; its supervisor trace event (R560) is reported in supervisor mode only: the model's choice
(log 88). -/
def State.supervisorReturn (te : Bool) (s : State) : Eff State :=
  s.localReturn.map fun t =>
    if s.supervisor then ((t.setTe te).setSupervisor false).event evSupervisor else t

/-- The processor state after a return from an interrupt handler: when the restored PC says that it was the outermost
one, back to executing or to idle (R54, R575; log 60). -/
def afterInterruptReturn (pc : Word) (p : ProcState) : ProcState :=
  if interruptedOf pc then p
  else
    match p with
    | .interrupted => .executing
    | .idleInterrupted => .idle
    | p => p

/-- `ret` (R344, R345). -/
def execRet (s : State) : Res :=
  let r0 := s.localReg 0
  let t := s.event evReturn
  if r0.getLsbD 3 = true ∧ s.te = true ∧ traceModes s.tctl &&& evPrereturn ≠ 0 then
    raiseTrace evPrereturn s.ip s.ip s
  else
    match (r0.extractLsb' 0 3).toNat with
    | 0 => s.commit t.localReturn
    | 1 => s.commit t.handlerReturn
    | 2 => s.commit (t.supervisorReturn false)
    | 3 => s.commit (t.supervisorReturn true)
    | 7 => s.commitThen t.handlerReturn fun u =>
        thenCheckPending { u with proc := afterInterruptReturn u.pctl u.proc }
    | _ => .refused .reservedReturnStatus

/-- `flushreg` (R346): every cached set but the current one is written to its frame. -/
def execFlushreg (s : State) : Res :=
  .next ({ s.flushBeyond 0 s.cached with cached := [] }.advance 4#32)

end Sys2Proof.Machine
end

