-- ==== Sys2Proof/Machine/CompareBranch.lean ====
section
/-! DEFINITION. Compare, branch, compare-and-branch, test and conditional fault (43_compare_branch.md). -/

namespace Sys2Proof.Machine

/-! ### Compare -/

/-- `cmpo` (R271). -/
def execCmpo (src1 src2 : Src) (s : State) : Res := s.resultOnlyCc (compareOrd (srcVal s src1) (srcVal s src2))
/-- `cmpi` (R272). -/
def execCmpi (src1 src2 : Src) (s : State) : Res := s.resultOnlyCc (compareInt (srcVal s src1) (srcVal s src2))

/-- The condition code of a conditional compare (R273). -/
def conditionalCc (cc : BitVec 3) (le : Bool) : BitVec 3 := if cc.getLsbD 2 then cc else if le then 0b010 else 0b001

/-- `concmpo` (R273). -/
def execConcmpo (src1 src2 : Src) (s : State) : Res :=
  s.resultOnlyCc (conditionalCc s.ac.cc (decide ((srcVal s src1).toNat ≤ (srcVal s src2).toNat)))
/-- `concmpi` (R274). -/
def execConcmpi (src1 src2 : Src) (s : State) : Res :=
  s.resultOnlyCc (conditionalCc s.ac.cc (decide ((srcVal s src1).toInt ≤ (srcVal s src2).toInt)))

/-- A compare that also writes `src2` plus `d` (R275 to R278). -/
def compareStep (s : State) (compare : Word → Word → BitVec 3) (d : Word) (src1 src2 : Src) (dst : Dst) : Res :=
  s.resultCc dst (srcVal s src2 + d) (compare (srcVal s src1) (srcVal s src2))

/-- `cmpinco` (R275). -/
def execCmpinco (src1 src2 : Src) (dst : Dst) (s : State) : Res := compareStep s compareOrd 1#32 src1 src2 dst
/-- `cmpinci` (R276). -/
def execCmpinci (src1 src2 : Src) (dst : Dst) (s : State) : Res := compareStep s compareInt 1#32 src1 src2 dst
/-- `cmpdeco` (R277). -/
def execCmpdeco (src1 src2 : Src) (dst : Dst) (s : State) : Res := compareStep s compareOrd (-1#32) src1 src2 dst
/-- `cmpdeci` (R278). -/
def execCmpdeci (src1 src2 : Src) (dst : Dst) (s : State) : Res := compareStep s compareInt (-1#32) src1 src2 dst

/-! ### Unconditional branches and branch-and-link -/

/-- `b` (R280). -/
def execB (disp : BitVec 22) (s : State) : Res := .next (s.branch (ctrlTarget s.ip disp))
/-- `bx` (R281, R282). -/
def execBx (m : MemOp) (s : State) : Res := .next (s.branch (effectiveAddress s m &&& 0xFFFFFFFC#32))

/-- The link register of `bal`, g14 (R283). -/
def linkRegister : Reg := 30#5

/-- `bal` (R283): a call trace event (R560). -/
def execBal (disp : BitVec 22) (s : State) : Res :=
  .next { (s.setReg linkRegister (s.ip + 4#32)).event evCall with ip := ctrlTarget s.ip disp }
/-- `balx` (R284): the target is computed before `dst` is written. -/
def execBalx (r : Reg) (m : MemOp) (s : State) : Res :=
  .next (((s.setReg r (s.ip + memLength m)).event evCall).goto (effectiveAddress s m))

/-! ### Branch if (R290) -/

/-- A branch taken when condition `m` holds. -/
def branchOn (s : State) (m : BitVec 3) (disp : BitVec 22) : Res :=
  .next (s.branchIf (condHolds m s.ac.cc) (ctrlTarget s.ip disp))

/-- `bno` (R291). -/
def execBno (disp : BitVec 22) (s : State) : Res := branchOn s 0#3 disp
/-- `bg` (R292). -/
def execBg (disp : BitVec 22) (s : State) : Res := branchOn s 1#3 disp
/-- `be` (R293). -/
def execBe (disp : BitVec 22) (s : State) : Res := branchOn s 2#3 disp
/-- `bge` (R294). -/
def execBge (disp : BitVec 22) (s : State) : Res := branchOn s 3#3 disp
/-- `bl` (R295). -/
def execBl (disp : BitVec 22) (s : State) : Res := branchOn s 4#3 disp
/-- `bne` (R296). -/
def execBne (disp : BitVec 22) (s : State) : Res := branchOn s 5#3 disp
/-- `ble` (R297). -/
def execBle (disp : BitVec 22) (s : State) : Res := branchOn s 6#3 disp
/-- `bo` (R298). -/
def execBo (disp : BitVec 22) (s : State) : Res := branchOn s 7#3 disp

/-! ### Compare and branch (R300) -/

/-- Compare, write the condition code, and branch when condition `m` holds of the new one. -/
def compareBranch (s : State) (compare : Word → Word → BitVec 3) (m : BitVec 3) (src1 : Src) (src2 : Reg)
    (disp : BitVec 11) : Res :=
  let cc := compare (srcVal s src1) (s.readReg src2)
  .next ((s.setCc cc).branchIf (condHolds m cc) (cobrTarget s.ip disp))

/-- `cmpobg` (R301). -/
def execCmpobg (src1 : Src) (src2 : Reg) (disp : BitVec 11) (s : State) : Res :=
  compareBranch s compareOrd 1#3 src1 src2 disp
/-- `cmpobe` (R302). -/
def execCmpobe (src1 : Src) (src2 : Reg) (disp : BitVec 11) (s : State) : Res :=
  compareBranch s compareOrd 2#3 src1 src2 disp
/-- `cmpobge` (R303). -/
def execCmpobge (src1 : Src) (src2 : Reg) (disp : BitVec 11) (s : State) : Res :=
  compareBranch s compareOrd 3#3 src1 src2 disp
/-- `cmpobl` (R304). -/
def execCmpobl (src1 : Src) (src2 : Reg) (disp : BitVec 11) (s : State) : Res :=
  compareBranch s compareOrd 4#3 src1 src2 disp
/-- `cmpobne` (R305). -/
def execCmpobne (src1 : Src) (src2 : Reg) (disp : BitVec 11) (s : State) : Res :=
  compareBranch s compareOrd 5#3 src1 src2 disp
/-- `cmpoble` (R306). -/
def execCmpoble (src1 : Src) (src2 : Reg) (disp : BitVec 11) (s : State) : Res :=
  compareBranch s compareOrd 6#3 src1 src2 disp
/-- `cmpibno` (R307). -/
def execCmpibno (src1 : Src) (src2 : Reg) (disp : BitVec 11) (s : State) : Res :=
  compareBranch s compareInt 0#3 src1 src2 disp
/-- `cmpibg` (R308). -/
def execCmpibg (src1 : Src) (src2 : Reg) (disp : BitVec 11) (s : State) : Res :=
  compareBranch s compareInt 1#3 src1 src2 disp
/-- `cmpibe` (R309). -/
def execCmpibe (src1 : Src) (src2 : Reg) (disp : BitVec 11) (s : State) : Res :=
  compareBranch s compareInt 2#3 src1 src2 disp
/-- `cmpibge` (R310). -/
def execCmpibge (src1 : Src) (src2 : Reg) (disp : BitVec 11) (s : State) : Res :=
  compareBranch s compareInt 3#3 src1 src2 disp
/-- `cmpibl` (R311). -/
def execCmpibl (src1 : Src) (src2 : Reg) (disp : BitVec 11) (s : State) : Res :=
  compareBranch s compareInt 4#3 src1 src2 disp
/-- `cmpibne` (R312). -/
def execCmpibne (src1 : Src) (src2 : Reg) (disp : BitVec 11) (s : State) : Res :=
  compareBranch s compareInt 5#3 src1 src2 disp
/-- `cmpible` (R313). -/
def execCmpible (src1 : Src) (src2 : Reg) (disp : BitVec 11) (s : State) : Res :=
  compareBranch s compareInt 6#3 src1 src2 disp
/-- `cmpibo` (R314). -/
def execCmpibo (src1 : Src) (src2 : Reg) (disp : BitVec 11) (s : State) : Res :=
  compareBranch s compareInt 7#3 src1 src2 disp

/-- Branch when the bit of `src2` that `src1` names is `set`; the condition code becomes 0b000 or 0b010, which of the
two is not certain (R315, R316, U13; log 37). -/
def bitBranch (s : State) (set : Bool) (src1 : Src) (src2 : Reg) (disp : BitVec 11) : Res :=
  let bit := (s.readReg src2).getLsbD ((srcVal s src1).toNat % 32)
  .next ((s.setCc (0#1 ++ BitVec.ofBool (Config.freeBit s.serial 105) ++ 0#1)).branchIf (bit == set)
    (cobrTarget s.ip disp))

/-- `bbc` (R315). -/
def execBbc (src1 : Src) (src2 : Reg) (disp : BitVec 11) (s : State) : Res := bitBranch s false src1 src2 disp
/-- `bbs` (R316). -/
def execBbs (src1 : Src) (src2 : Reg) (disp : BitVec 11) (s : State) : Res := bitBranch s true src1 src2 disp

/-! ### Test (R320) -/

/-- Write 1 or 0 as condition `m` holds or not. -/
def testOn (s : State) (m : BitVec 3) (dst : Reg) : Res :=
  .next ((s.setReg dst (if condHolds m s.ac.cc then 1#32 else 0#32)).advance 4#32)

/-- `testno` (R321). -/
def execTestno (dst : Reg) (s : State) : Res := testOn s 0#3 dst
/-- `testg` (R322). -/
def execTestg (dst : Reg) (s : State) : Res := testOn s 1#3 dst
/-- `teste` (R323). -/
def execTeste (dst : Reg) (s : State) : Res := testOn s 2#3 dst
/-- `testge` (R324). -/
def execTestge (dst : Reg) (s : State) : Res := testOn s 3#3 dst
/-- `testl` (R325). -/
def execTestl (dst : Reg) (s : State) : Res := testOn s 4#3 dst
/-- `testne` (R326). -/
def execTestne (dst : Reg) (s : State) : Res := testOn s 5#3 dst
/-- `testle` (R327). -/
def execTestle (dst : Reg) (s : State) : Res := testOn s 6#3 dst
/-- `testo` (R328). -/
def execTesto (dst : Reg) (s : State) : Res := testOn s 7#3 dst

/-! ### Conditional fault (R330) -/

/-- Constraint.Range when condition `m` holds, saved at the next instruction (R330, R505, R512). -/
def faultOn (s : State) (m : BitVec 3) : Res :=
  if condHolds m s.ac.cc then faultAfter .constraintRange s.ip (s.advance 4#32) else .next (s.advance 4#32)

/-- `faultno` (R331). -/
def execFaultno (s : State) : Res := faultOn s 0#3
/-- `faultg` (R332). -/
def execFaultg (s : State) : Res := faultOn s 1#3
/-- `faulte` (R333). -/
def execFaulte (s : State) : Res := faultOn s 2#3
/-- `faultge` (R334). -/
def execFaultge (s : State) : Res := faultOn s 3#3
/-- `faultl` (R335). -/
def execFaultl (s : State) : Res := faultOn s 4#3
/-- `faultne` (R336). -/
def execFaultne (s : State) : Res := faultOn s 5#3
/-- `faultle` (R337). -/
def execFaultle (s : State) : Res := faultOn s 6#3
/-- `faulto` (R338). -/
def execFaulto (s : State) : Res := faultOn s 7#3

end Sys2Proof.Machine
end

