-- ==== Sys2Proof/Machine/Boot.lean ====
section
/-! DEFINITION. The processor's own part of initialization: the initial memory image, the PRCB, and the state in which
the first instruction executes (R580 to R583, R52). -/

namespace Sys2Proof.Machine

/-- Load the on-chip copies of a PRCB's fields (R52, R545, R581). Its reserved words are not looked at, where R587 would let
a model refuse the state (log 78). -/
def State.loadPrcb (segTable prcb : Word) (s : State) : Eff State :=
  (s.loadWord (prcb + 4#32)).bind fun controls =>
    (s.loadWord (prcb + 16#32)).bind fun port =>
      (s.loadWord (prcb + 20#32)).bind fun ints =>
        (s.loadWord (prcb + 24#32)).bind fun stack =>
          (s.loadWord (prcb + 32#32)).bind fun region =>
            (s.loadWord (prcb + 36#32)).bind fun procs =>
              (s.loadWord (prcb + 40#32)).map fun faults =>
                { s with
                  segTable := segTable
                  prcb := prcb
                  procControls := controls
                  dispatchPort := port
                  intTable := ints
                  intStack := stack
                  region3 := region
                  sysProcTable := procs
                  faultTable := faults }

/-- The addressing-mode flag of the processor controls: virtual (R53). -/
def virtualMode (procControls : Word) : Bool := procControls.getLsbD 10

/-- Begin executing at `start` on the interrupt stack, as after reset (R581, R583). -/
def State.startAt (start : Word) (s : State) : State :=
  { s with
    ip := start &&& 0xFFFFFFFC#32
    globals := s.globals.set 15 s.intStack
    pctl := resetProcessControls
    proc := .idleInterrupted
    cached := []
    stale := [] }

/-- R582: the add-with-carry chain over some words. -/
def checksumFrom (sum carry : Nat) : List Word → Nat
  | [] => sum
  | w :: ws =>
    let n := sum + w.toNat + carry
    checksumFrom (n % 2 ^ 32) (n / 2 ^ 32) ws

/-- What initialization does once the self test and the checksum have passed (R581, steps 3 to 5): the pointers of the
initial memory image are followed, and the program it names begins. -/
def State.followImage (s : State) : Eff State :=
  (s.loadWord 0#32).bind fun segTable =>
    (s.loadWord 4#32).bind fun prcb =>
      (s.loadWord 12#32).bind fun start => (s.loadPrcb segTable prcb).map (State.startAt start)

/-- The first stage of initialization from the state `s`, whose memory and map the platform gives, as is whether the self
test passes: a self test that fails, a wrong checksum, or a bad access on the way stops the processor (R581, R582, U30;
log 77). -/
def State.initialize (selfTest : Bool) (s : State) : State :=
  if selfTest = true ∧ s.readable 0#32 32 = true ∧ checksumFrom 0 0 (s.readWords 0#32 8) = 0 then
    match s.followImage with
    | .ok t => t
    | _ => { s with proc := .stopped }
  else { s with proc := .stopped }

/-- The machine right after reset on a platform with this memory and map, and this outcome of the self test (R75, R581,
R583). -/
def boot (selfTest : Bool) (mem : Memory) (memMap : List MemRange) : State :=
  { State.reset with mem := mem, memMap := memMap }.initialize selfTest

end Sys2Proof.Machine
end

