-- ==== Sys2Proof/Machine/Iac.lean ====
section
/-! DEFINITION. The IAC messages a processor sends to itself (R540, R541, R545, R562; log 55). -/

namespace Sys2Proof.Machine

/-- A message (R540): type and the fields 1 to 5. -/
structure IacMessage where
  type : Nat
  field1 : BitVec 8
  field2 : BitVec 16
  field3 : Word
  field4 : Word
  field5 : Word
deriving DecidableEq, Repr

/-- The message of four words (R540). -/
def messageOf (w0 w1 w2 w3 : Word) : IacMessage :=
  { type := (w0.extractLsb' 24 8).toNat, field1 := w0.extractLsb' 16 8, field2 := w0.extractLsb' 0 16, field3 := w1
    field4 := w2, field5 := w3 }

/-- A breakpoint register as the set-breakpoint message gives it: bit 1 of the word disables it (log 19). -/
def breakpointOf (w : Word) : Breakpoint := { addr := w &&& 0xFFFFFFFC#32, enabled := !w.getLsbD 1 }

/-- The set-breakpoint message loads one of the two registers from field 3; which one is not determined (R541, R562; both
the field and the open choice are the model's, log 19). -/
def State.setBreakpoint (m : IacMessage) (s : State) : State :=
  if Config.breakpointSelect m.field1 m.field2 then { s with bp1 := breakpointOf m.field3 }
  else { s with bp0 := breakpointOf m.field3 }

/-- R545: the pointers of the new PRCB are loaded and the processor is idle; the modelled scope ends there (D3). -/
def State.restart (segTable prcb : Word) (s : State) : Eff State :=
  (s.loadPrcb segTable prcb).map fun t => { t with proc := .idle, stale := [], restarted := true }

/-- R541: begin again from a new PRCB, segment table and ip. If its processor controls ask for virtual mode, the modelled
scope ends (R108, D3; log 57). -/
def State.reinitialize (prcb segTable start : Word) (s : State) : Eff State :=
  (s.loadPrcb segTable prcb).map fun t => { t.startAt start with restarted := virtualMode t.procControls }

/-- What a message does to the state `s` that the sending instruction leaves (R541; logs 55 to 57). -/
def State.receiveIac (m : IacMessage) (s : State) : Eff State :=
  match m.type with
  | 0x40 => if m.field1.toNat < 8 then .raise .iac else s.interruptArrives m.field1
  | 0x41 => s.checkPending
  | 0x80 => .ok ((s.writeWord m.field3 s.segTable).writeWord (m.field3 + 4#32) s.prcb)
  | 0x81 => s.restart m.field3 m.field4
  | 0x89 => .ok { s with stale := [] }
  | 0x8F => .ok (s.setBreakpoint m)
  | 0x91 => .ok { s with proc := .stopped }
  | 0x92 => s.followImage
  | 0x93 => s.reinitialize m.field3 m.field4 m.field5
  | t => .refuse (.iacUnspecified t)

end Sys2Proof.Machine
end

