-- ==== Sys2Proof/Machine/Control.lean ====
section
/-! DEFINITION. Control words, debug, atomic, synchronous and virtual-memory instructions
(45_debug_processor_mgmt.md). -/

namespace Sys2Proof.Machine

/-! ### Debug and control words -/

/-- A breakpoint trace event raised by an instruction itself, with the instruction's other events (R361, R365, R560). -/
def markEvent (s : State) : Res :=
  raiseTrace (s.traced &&& traceModes s.tctl ||| evBreakpoint) s.ip (s.ip + 4#32) (s.advance 4#32)

/-- `mark` (R361). -/
def execMark (s : State) : Res :=
  if s.te = true ∧ traceModes s.tctl &&& evBreakpoint ≠ 0 then markEvent s else .next (s.advance 4#32)
/-- `fmark` (R365). -/
def execFmark (s : State) : Res := if s.te then markEvent s else .next (s.advance 4#32)

/-- `modac` (R362): all three values are taken before anything is written. -/
def execModac (src1 src2 : Src) (dst : Dst) (s : State) : Res :=
  s.commit ((dstWrite dst s.ac.toWord s).map fun t =>
    { t with ac := ArithControls.ofWord (mergeMask (srcVal s src1) (srcVal s src2) s.ac.toWord) }.advance 4#32)

/-- The processor state after PC was changed: it follows PC.st where that changes (R54, R575; log 50). -/
def relabel (old new : Word) (p : ProcState) : ProcState :=
  if interruptedOf new = interruptedOf old then p
  else
    match p with
    | .executing => .interrupted
    | .interrupted => .executing
    | .idleInterrupted => .executing
    | p => p

/-- `modpc` (R363): `src1` is a placeholder. -/
def execModpc (_src1 src2 : Src) (dst : Dst) (s : State) : Res :=
  let mask := srcVal s src2
  if mask = 0#32 then s.result dst s.pctl
  else if s.supervisor = false then takeFault .mismatch s.ip s.ip s
  else
    let pc := mergeMask mask (dstVal s dst) s.pctl
    s.commitThen (dstWrite dst s.pctl s) fun t =>
      let u := { t with pctl := pc, proc := relabel s.pctl pc s.proc }.advance 4#32
      if priorityOf pc < priorityOf s.pctl then thenCheckPending u else .next u

/-- The bits `modtc` can change (R364; log 52). -/
def traceControlMask : Word := 0x00FF00FF#32

/-- `modtc` (R364). -/
def execModtc (src1 src2 : Src) (dst : Dst) (s : State) : Res :=
  s.commit ((dstWrite dst s.tctl s).map fun t =>
    { t with tctl := mergeMask (srcVal s src1 &&& traceControlMask) (srcVal s src2) s.tctl }.advance 4#32)

/-- `syncf` (R366): every fault is already precise. -/
def execSyncf (s : State) : Res := .next (s.advance 4#32)

/-! ### Atomic instructions -/

/-- A locked read-modify-write of the word at `val1`, its low two bits ignored; the old word is the result (R367). -/
def atomicUpdate (s : State) (src1 : Src) (dst : Dst) (f : Word → Word) : Res :=
  let a := srcVal s src1 &&& 0xFFFFFFFC#32
  s.commit ((s.loadWord a).bind fun old => (dstWrite dst old (s.writeWord a (f old))).map (State.advance 4#32))

/-- `atadd` (R368). -/
def execAtadd (src1 src2 : Src) (dst : Dst) (s : State) : Res := atomicUpdate s src1 dst (· + srcVal s src2)
/-- `atmod` (R369). -/
def execAtmod (src1 src2 : Src) (dst : Dst) (s : State) : Res :=
  atomicUpdate s src1 dst fun old => mergeMask (srcVal s src2) (dstVal s dst) old

/-! ### Synchronous move and load (R370) -/

/-- The address at which the processor takes an IAC message from itself (R370, R540). -/
def iacAddress : Word := 0xFF000010#32

/-- The interrupt control register's address (R528). -/
def icrAddress : Word := 0xFF000004#32

/-- Store free words at `n` consecutive words. -/
def State.writeFreeWords (a : Word) (serial : Nat) : Nat → State → State
  | 0, s => s
  | n + 1, s => State.writeFreeWords (a + 4#32) serial n (s.writeFreeWord a serial (300 + n))

/-- A synchronous write of words: true, or, if the memory system rejects it, false with the bytes undefined (R371;
log 58). Only a range of kind `bad` rejects it: ROM and devices report success (log 79). -/
def synWrite (d : Word) (ws : List Word) (s : State) : State :=
  if s.readable d (4 * ws.length) then (s.writeWords d ws).setCc (foundCc true)
  else (s.writeFreeWords d s.serial ws.length).setCc (foundCc false)

/-- Words beyond those a shorter `synmov` sends are undefined (log 58). -/
def messageWord (s : State) (ws : List Word) (k : Nat) : Word := ws.getD k (Config.freeWord s.serial (150 + k))

/-- A synchronous move of `n` words to `d` (R371 to R373). -/
def synchronousMove (s : State) (n : Nat) (d : Word) (src2 : Src) : Res :=
  s.commitThen (s.loadWords (srcVal s src2) n) fun ws =>
    if d = iacAddress then
      let m := messageOf (messageWord s ws 0) (messageWord s ws 1) (messageWord s ws 2) (messageWord s ws 3)
      s.commit (((s.setCc (foundCc true)).advance 4#32).receiveIac m)
    else if n = 1 ∧ d = icrAddress then
      .next ({ s.setCc (foundCc true) with icr := ws.getD 0 0 }.advance 4#32)
    else .next ((synWrite d ws s).advance 4#32)

/-- `synmov` (R371). -/
def execSynmov (src1 src2 : Src) (s : State) : Res := synchronousMove s 1 (srcVal s src1 &&& 0xFFFFFFFC#32) src2
/-- `synmovl` (R372). -/
def execSynmovl (src1 src2 : Src) (s : State) : Res := synchronousMove s 2 (srcVal s src1 &&& 0xFFFFFFF8#32) src2
/-- `synmovq` (R373). -/
def execSynmovq (src1 src2 : Src) (s : State) : Res := synchronousMove s 4 (srcVal s src1 &&& 0xFFFFFFF0#32) src2

/-- `synld` (R374): a read that fails leaves the destination undefined. -/
def execSynld (src : Src) (dst : Dst) (s : State) : Res :=
  let a := srcVal s src &&& 0xFFFFFFFC#32
  if a = icrAddress then s.resultCc dst s.icr (foundCc true)
  else if s.readable a 4 then s.resultCc dst (s.readWord a) (foundCc true)
  else s.resultCc dst (Config.freeWord s.serial 106) (foundCc false)

/-! ### Virtual-memory queries -/

/-- `ldphy` (R376): undefined effect in physical mode (R375). -/
def execLdphy (_src : Src) (_dst : Dst) (_s : State) : Res := .refused (.physicalModeUndefined "ldphy")
/-- `inspacc` (R377): undefined effect in physical mode (R375). -/
def execInspacc (_src : Src) (_dst : Dst) (_s : State) : Res := .refused (.physicalModeUndefined "inspacc")

end Sys2Proof.Machine
end

