-- ==== Sys2Proof/Machine/DataMovement.lean ====
section
/-! DEFINITION. Loads, stores, load address and moves (40_data_movement.md). -/

namespace Sys2Proof.Machine

/-! ### Shared shapes (R180) -/

/-- Read a byte, or Machine.BadAccess (R503). -/
def State.loadByte (s : State) (a : Word) : Eff Byte :=
  if s.readable a 1 then .ok (s.readByte a) else .raise .badAccess

/-- Read a short, little-endian, or Machine.BadAccess (R81, R503). -/
def State.loadShort (s : State) (a : Word) : Eff (BitVec 16) :=
  if s.readable a 2 then .ok (s.readByte (a + 1) ++ s.readByte a) else .raise .badAccess

/-- A load of one register from the effective address of `m`. -/
def loadOne {n : Nat} (s : State) (r : Reg) (m : MemOp) (read : State → Word → Eff (BitVec n)) (extend : BitVec n → Word) :
    Res :=
  s.commit ((read s (effectiveAddress s m)).map fun v => (s.setReg r (extend v)).advance (memLength m))

/-- A load of `n` registers from the effective address of `m` (R202). -/
def loadGroup (s : State) (r : Reg) (m : MemOp) (n : Nat) : Res :=
  s.commit ((aligned (groupSize n) r (s.loadWords (effectiveAddress s m) n)).map fun ws =>
    (s.setRegs r ws).advance (memLength m))

/-- A store of the low `n` bytes of a register. -/
def storeLow (s : State) (r : Reg) (m : MemOp) (n : Nat) : State :=
  (s.writeBytes (effectiveAddress s m) ((bytesOfWord (s.readReg r)).take n)).advance (memLength m)

/-- A store of `n` registers (R202). -/
def storeGroup (s : State) (r : Reg) (m : MemOp) (n : Nat) : Res :=
  s.commit (aligned (groupSize n) r
    (.ok ((s.writeWords (effectiveAddress s m) (s.readRegs r n)).advance (memLength m))))

/-- A move of `n` words, all read before any is written (R199). -/
def moveGroup (s : State) (src : Src) (dst : Dst) (n : Nat) : Res :=
  s.commit ((srcWords s n src).bind fun ws => (dstWriteWords dst ws s).map (State.advance 4#32))

/-! ### Loads -/

/-- `ld` (R181). -/
def execLd (r : Reg) (m : MemOp) (s : State) : Res := loadOne s r m State.loadWord id
/-- `ldob` (R182). -/
def execLdob (r : Reg) (m : MemOp) (s : State) : Res := loadOne s r m State.loadByte (·.setWidth 32)
/-- `ldos` (R183). -/
def execLdos (r : Reg) (m : MemOp) (s : State) : Res := loadOne s r m State.loadShort (·.setWidth 32)
/-- `ldib` (R184). -/
def execLdib (r : Reg) (m : MemOp) (s : State) : Res := loadOne s r m State.loadByte (·.signExtend 32)
/-- `ldis` (R185). -/
def execLdis (r : Reg) (m : MemOp) (s : State) : Res := loadOne s r m State.loadShort (·.signExtend 32)
/-- `ldl` (R186). -/
def execLdl (r : Reg) (m : MemOp) (s : State) : Res := loadGroup s r m 2
/-- `ldt` (R187). -/
def execLdt (r : Reg) (m : MemOp) (s : State) : Res := loadGroup s r m 3
/-- `ldq` (R188). -/
def execLdq (r : Reg) (m : MemOp) (s : State) : Res := loadGroup s r m 4

/-! ### Stores -/

/-- `st` (R189). -/
def execSt (r : Reg) (m : MemOp) (s : State) : Res := .next (storeLow s r m 4)
/-- `stob` (R190). -/
def execStob (r : Reg) (m : MemOp) (s : State) : Res := .next (storeLow s r m 1)
/-- `stos` (R191). -/
def execStos (r : Reg) (m : MemOp) (s : State) : Res := .next (storeLow s r m 2)
/-- `stib` (R192): the byte is stored, then overflow is signalled. -/
def execStib (r : Reg) (m : MemOp) (s : State) : Res :=
  if fitsInt 7 (s.readReg r).toInt then .next (storeLow s r m 1) else integerOverflow s.ip (storeLow s r m 1)
/-- `stis` (R193). -/
def execStis (r : Reg) (m : MemOp) (s : State) : Res :=
  if fitsInt 15 (s.readReg r).toInt then .next (storeLow s r m 2) else integerOverflow s.ip (storeLow s r m 2)
/-- `stl` (R194). -/
def execStl (r : Reg) (m : MemOp) (s : State) : Res := storeGroup s r m 2
/-- `stt` (R195). -/
def execStt (r : Reg) (m : MemOp) (s : State) : Res := storeGroup s r m 3
/-- `stq` (R196). -/
def execStq (r : Reg) (m : MemOp) (s : State) : Res := storeGroup s r m 4

/-! ### Load address and moves -/

/-- `lda` (R197). -/
def execLda (r : Reg) (m : MemOp) (s : State) : Res :=
  .next ((s.setReg r (effectiveAddress s m)).advance (memLength m))
/-- `mov` (R198). -/
def execMov (src : Src) (dst : Dst) (s : State) : Res := s.result dst (srcVal s src)
/-- `movl` (R199). -/
def execMovl (src : Src) (dst : Dst) (s : State) : Res := moveGroup s src dst 2
/-- `movt` (R200). -/
def execMovt (src : Src) (dst : Dst) (s : State) : Res := moveGroup s src dst 3
/-- `movq` (R201). -/
def execMovq (src : Src) (dst : Dst) (s : State) : Res := moveGroup s src dst 4

end Sys2Proof.Machine
end

