-- ==== Sys2Proof/Machine/Fp.lean ====
section
/-!
DEFINITION. Real numbers and IEEE arithmetic as the floating-point instructions use them (R425 to R429, D20): formats,
operands, exact results, one rounding to the destination's format, exceptions, masks and flags.
-/

namespace Sys2Proof.Machine

/-! ### Formats (R426) -/

/-- Significant bits, the integer bit included. -/
def FpFormat.precision : FpFormat → Nat
  | .real => 24
  | .long => 53
  | .extended => 64

/-- The exponent of the largest normal numbers, which is the bias. -/
def FpFormat.maxExp : FpFormat → Nat
  | .real => 127
  | .long => 1023
  | .extended => 16383

/-- The exponent of the last bit of a denormalized number. -/
def FpFormat.lastExp (f : FpFormat) : Int := 2 - (f.maxExp : Int) - f.precision

/-- Words in general registers (R426). -/
def FpFormat.words : FpFormat → Nat
  | .real => 1
  | .long => 2
  | .extended => 3

/-! ### Reading encodings (R426, R471) -/

/-- A NaN's class, by the most-significant fraction bit of its extended significand. -/
def nanClass (sig : BitVec 64) : FpClass := if sig.getLsbD 62 then .quietNaN else .signalingNaN

/-- An encoding with an implicit integer bit: `fb` fraction bits and `eb` exponent bits (R426). -/
def decodeImplicit (fb eb : Nat) (neg : Bool) (exp frac : Nat) : FpOperand :=
  let bias : Int := 2 ^ (eb - 1) - 1
  if exp = 2 ^ eb - 1 then
    if frac = 0 then { neg := neg, cls := .infinity, num := .inf neg }
    else
      let sig := BitVec.ofNat 64 (2 ^ 63 + frac * 2 ^ (63 - fb))
      { neg := neg, cls := nanClass sig, num := .nan neg sig }
  else if exp = 0 then
    if frac = 0 then { neg := neg, cls := .zero, num := .zero neg }
    else { neg := neg, cls := .denormal, num := .fin neg frac (1 - bias - fb) }
  else { neg := neg, cls := .normal, num := .fin neg (2 ^ fb + frac) (exp - bias - fb) }

/-- A real (R426). -/
def decodeReal (w : Word) : FpOperand :=
  decodeImplicit 23 8 (w.getLsbD 31) (w.extractLsb' 23 8).toNat (w.extractLsb' 0 23).toNat

/-- A long real (R426). -/
def decodeLong (w : BitVec 64) : FpOperand :=
  decodeImplicit 52 11 (w.getLsbD 63) (w.extractLsb' 52 11).toNat (w.extractLsb' 0 52).toNat

/-- An extended real; a j-bit that disagrees with the exponent is a reserved encoding (R426). -/
def decodeExtended (x : Ext) : FpOperand :=
  let neg := x.getLsbD 79
  let exp := (x.extractLsb' 64 15).toNat
  let sig := x.extractLsb' 0 64
  let reserved : FpOperand := { neg := neg, cls := .reserved, num := .zero neg }
  if exp = 0x7FFF then
    if sig.getLsbD 63 = false then reserved
    else if sig = 0x8000000000000000#64 then { neg := neg, cls := .infinity, num := .inf neg }
    else { neg := neg, cls := nanClass sig, num := .nan neg sig }
  else if exp = 0 then
    if sig = 0 then { neg := neg, cls := .zero, num := .zero neg }
    else if sig.getLsbD 63 then reserved
    else { neg := neg, cls := .denormal, num := .fin neg sig.toNat (-16445) }
  else if sig.getLsbD 63 then { neg := neg, cls := .normal, num := .fin neg sig.toNat (exp - 16446) }
  else reserved

/-- The first word of a list of words, then the second and the third, as an extended real's bits (R426, R432). -/
def extOfWords (ws : List Word) : Ext :=
  (ws.getD 2 0).extractLsb' 0 16 ++ ws.getD 1 0 ++ ws.getD 0 0

/-- A value held in general registers in a format (R426, R427). -/
def decodeWords (f : FpFormat) (ws : List Word) : FpOperand :=
  match f with
  | .real => decodeReal (ws.getD 0 0)
  | .long => decodeLong (ws.getD 1 0 ++ ws.getD 0 0)
  | .extended => decodeExtended (extOfWords ws)

/-! ### Writing encodings -/

/-- The bits of a finite number `m * 2^e` that the format holds exactly, `e` being the exponent of its last place. -/
def encodeFinite (f : FpFormat) (neg : Bool) (m : Nat) (e : Int) : Ext :=
  let p := f.precision
  let normal := decide (2 ^ (p - 1) ≤ m)
  let exp : Nat := if normal then (e + (p - 1 : Nat) + f.maxExp).toNat else 0
  match f with
  | .real => (BitVec.ofBool neg ++ BitVec.ofNat 8 exp ++ BitVec.ofNat 23 m).setWidth 80
  | .long => (BitVec.ofBool neg ++ BitVec.ofNat 11 exp ++ BitVec.ofNat 52 m).setWidth 80
  | .extended => BitVec.ofBool neg ++ BitVec.ofNat 15 exp ++ BitVec.ofNat 64 m

/-- The bits of a number the format holds, in the low part of 80 bits (R426). A NaN's significand loses its low bits in
the shorter formats. -/
def encodeNum (f : FpFormat) : FpNum → Ext
  | .zero neg =>
    match f with
    | .real => (BitVec.ofBool neg ++ 0#31).setWidth 80
    | .long => (BitVec.ofBool neg ++ 0#63).setWidth 80
    | .extended => BitVec.ofBool neg ++ 0#79
  | .fin neg m e => encodeFinite f neg m e
  | .inf neg =>
    match f with
    | .real => (BitVec.ofBool neg ++ 0xFF#8 ++ 0#23).setWidth 80
    | .long => (BitVec.ofBool neg ++ 0x7FF#11 ++ 0#52).setWidth 80
    | .extended => BitVec.ofBool neg ++ 0x7FFF#15 ++ 0x8000000000000000#64
  | .nan neg sig =>
    match f with
    | .real => (BitVec.ofBool neg ++ 0xFF#8 ++ sig.extractLsb' 40 23).setWidth 80
    | .long => (BitVec.ofBool neg ++ 0x7FF#11 ++ sig.extractLsb' 11 52).setWidth 80
    | .extended => BitVec.ofBool neg ++ 0x7FFF#15 ++ sig

/-- The words of a general-register result (R426, R432: the upper half of an extended real's third word is 0). -/
def wordsOfExt (f : FpFormat) (x : Ext) : List Word :=
  match f with
  | .real => [x.extractLsb' 0 32]
  | .long => [x.extractLsb' 0 32, x.extractLsb' 32 32]
  | .extended => [x.extractLsb' 0 32, x.extractLsb' 32 32, (x.extractLsb' 64 16).setWidth 32]

/-! ### Rounding (R429) -/

/-- Is a truncated magnitude, odd or even, with the remainder `rem` of `2 * half`, rounded up? `rc`: to nearest even,
down, up, toward zero. -/
def roundsUp (rc : BitVec 2) (neg odd : Bool) (rem half : Nat) : Bool :=
  if rc = 0 then decide (half < rem) || (decide (rem = half) && odd)
  else if rc = 1 then neg && decide (rem ≠ 0)
  else if rc = 2 then !neg && decide (rem ≠ 0)
  else false

/-- `m * 2^e` as a multiple of `2^q`, and whether that lost something. A shift beyond the number's length leaves a
magnitude below a quarter, which 1 out of 4 stands for. -/
def quantize (rc : BitVec 2) (neg : Bool) (m : Nat) (e q : Int) : Nat × Bool :=
  if q ≤ e then (m * 2 ^ (e - q).toNat, false)
  else
    let sh := (q - e).toNat
    if Nat.log2 m + 3 < sh then ((roundsUp rc neg false 1 2).toNat, true)
    else
      let rem := m % 2 ^ sh
      (m / 2 ^ sh + (roundsUp rc neg (m / 2 ^ sh % 2 == 1) rem (2 ^ (sh - 1))).toNat, decide (rem ≠ 0))

/-- The result of an operation before rounding, with the exceptions it signals. -/
structure FpResult where
  num : FpNum
  exc : FpExceptions := {}
deriving DecidableEq, Repr

/-- What overflow delivers: an infinity or the largest finite number, by rounding and sign (R428). -/
def overflowDefault (f : FpFormat) (rc : BitVec 2) (neg : Bool) : FpNum :=
  let largest : FpNum := .fin neg (2 ^ f.precision - 1) (f.maxExp - f.precision + 1)
  if rc = 0 then .inf neg
  else if rc = 1 then if neg then .inf neg else largest
  else if rc = 2 then if neg then largest else .inf neg
  else largest

/-- Tiny before or after rounding; which of the two is not stated (log 48). -/
def tinyOf (before after : Bool) : Bool :=
  if before == after then before else if Config.tininessBeforeRounding then before else after

/-- Round `m * 2^e` (`m` positive) to a format (R428, R429). -/
def roundFinite (f : FpFormat) (rc : BitVec 2) (neg : Bool) (m : Nat) (e : Int) : FpResult :=
  let p := f.precision
  let msb : Int := e + Nat.log2 m
  let q : Int := max (msb - p + 1) f.lastExp
  let r := quantize rc neg m e q
  let n : Nat × Int := if r.1 = 2 ^ p then (2 ^ (p - 1), q + 1) else (r.1, q)
  let minExp : Int := 1 - f.maxExp
  let free := quantize rc neg m e (msb - p + 1)
  let freeMsb : Int := if free.1 = 2 ^ p then msb + 1 else msb
  if 2 ^ (p - 1) ≤ n.1 ∧ (f.maxExp : Int) < n.2 + p - 1 then
    { num := overflowDefault f rc neg, exc := { overflow := true, inexact := true } }
  else
    { num := if n.1 = 0 then .zero neg else .fin neg n.1 n.2
      exc := { tiny := tinyOf (decide (msb < minExp)) (decide (freeMsb < minExp)), inexact := r.2 } }

/-- Round a result to a format; zeros, infinities and NaNs need none. -/
def roundNum (f : FpFormat) (rc : BitVec 2) : FpNum → FpResult
  | .fin neg m e => roundFinite f rc neg m e
  | n => { num := n }

/-! ### Exact arithmetic -/

/-- An invalid operation without a NaN operand delivers a quiet NaN that is not defined further (R428; log 45). -/
def invalidResult (serial : Nat) : FpResult :=
  let x := Config.freeExt serial 111
  { num := .nan (x.getLsbD 79) (x.extractLsb' 0 64 ||| 0xC000000000000000#64), exc := { invalid := true } }

/-- The number of an integer. -/
def FpNum.ofInt (i : Int) : FpNum := if i = 0 then .zero false else .fin (decide (i < 0)) i.natAbs 0

/-- The integer `m * 2^(e - q)` with its sign, for `q ≤ e`. -/
def scaledInt (neg : Bool) (m : Nat) (e q : Int) : Int :=
  let n : Int := m * 2 ^ (e - q).toNat
  if neg then -n else n

/-- `y + x`; an exact zero of operands of opposite signs is -0 only when rounding down (R435). -/
def fpAdd (serial : Nat) (rc : BitVec 2) (x y : FpNum) : FpResult :=
  match x, y with
  | .inf a, .inf b => if a = b then { num := .inf a } else invalidResult serial
  | .inf a, _ => { num := .inf a }
  | _, .inf b => { num := .inf b }
  | .zero a, .zero b => { num := .zero (if a = b then a else decide (rc = 1)) }
  | .fin a m e, .fin b n g =>
    let q := min e g
    let s := scaledInt a m e q + scaledInt b n g q
    { num := if s = 0 then .zero (decide (rc = 1)) else .fin (decide (s < 0)) s.natAbs q }
  | .zero _, y => { num := y }
  | x, _ => { num := x }

/-- The opposite number. -/
def FpNum.negate : FpNum → FpNum
  | .zero n => .zero !n
  | .fin n m e => .fin (!n) m e
  | .inf n => .inf !n
  | .nan n s => .nan (!n) s

/-- `y - x` (R437). -/
def fpSub (serial : Nat) (rc : BitVec 2) (x y : FpNum) : FpResult := fpAdd serial rc x.negate y

/-- The sign of a number. -/
def FpNum.sign : FpNum → Bool
  | .zero n => n
  | .fin n _ _ => n
  | .inf n => n
  | .nan n _ => n

/-- `y * x`; zero times infinity is invalid (R439). -/
def fpMul (serial : Nat) (_rc : BitVec 2) (x y : FpNum) : FpResult :=
  let neg := x.sign != y.sign
  match x, y with
  | .inf _, .zero _ => invalidResult serial
  | .zero _, .inf _ => invalidResult serial
  | .inf _, _ => { num := .inf neg }
  | _, .inf _ => { num := .inf neg }
  | .fin _ m e, .fin _ n g => { num := .fin neg (m * n) (e + g) }
  | _, _ => { num := .zero neg }

/-- The quotient of `n * 2^g` by `m * 2^e`, with more bits than any format has and a last bit that says whether
something was left. -/
def quotient (neg : Bool) (m : Nat) (e : Int) (n : Nat) (g : Int) : FpNum :=
  let sh := 68 + Nat.log2 m
  let k := n * 2 ^ sh
  .fin neg (2 * (k / m) + (decide (k % m ≠ 0)).toNat) (g - e - sh - 1)

/-- `y / x` (R441). -/
def fpDiv (serial : Nat) (_rc : BitVec 2) (x y : FpNum) : FpResult :=
  let neg := x.sign != y.sign
  match x, y with
  | .inf _, .inf _ => invalidResult serial
  | .zero _, .zero _ => invalidResult serial
  | _, .inf _ => { num := .inf neg }
  | .inf _, _ => { num := .zero neg }
  | _, .zero _ => { num := .zero neg }
  | .zero _, _ => { num := .inf neg, exc := { zeroDivide := true } }
  | .fin _ m e, .fin _ n g => { num := quotient neg m e n g }
  | _, _ => { num := .zero neg }

/-- `y` rem `x`, the quotient truncated: exact, with the sign of `y` (R443). A zero divisor is zero-divide or invalid
(log 42); that the infinity of the zero-divide has the exclusive-or of the signs is the model's choice (log 91). -/
def fpRem (serial : Nat) (_rc : BitVec 2) (x y : FpNum) : FpResult :=
  match x, y with
  | _, .inf _ => invalidResult serial
  | .zero _, _ =>
    if Config.remainderZeroDivides then { num := .inf (x.sign != y.sign), exc := { zeroDivide := true } }
    else invalidResult serial
  | .fin _ m e, .fin b n g =>
    let q := min e g
    let r := n * 2 ^ (g - q).toNat % (m * 2 ^ (e - q).toNat)
    { num := if r = 0 then .zero b else .fin b r q }
  | _, y => { num := y }

/-- The integer square root, bit by bit from bit `k - 1` down. -/
def sqrtBits (n : Nat) : Nat → Nat → Nat
  | 0, acc => acc
  | k + 1, acc => sqrtBits n k (if (acc + 2 ^ k) * (acc + 2 ^ k) ≤ n then acc + 2 ^ k else acc)

/-- The square root of `m * 2^e`, with more bits than any format has and a last bit that says whether something was
left. -/
def squareRoot (m : Nat) (e : Int) : FpNum :=
  let k := 134 - Nat.log2 m
  let sh := if (e - k) % 2 = 0 then k else k + 1
  let n := m * 2 ^ sh
  let r := sqrtBits n 70 0
  .fin false (2 * r + (decide (r * r ≠ n)).toNat) ((e - sh) / 2 - 1)

/-- Square root; of a negative number other than -0 it is invalid (R445). -/
def fpSqrt (serial : Nat) (_rc : BitVec 2) (x : FpNum) : FpResult :=
  match x with
  | .fin false m e => { num := squareRoot m e }
  | .fin true _ _ => invalidResult serial
  | .inf true => invalidResult serial
  | x => { num := x }

/-- Round to an integral value (R447); underflow never arises: the model's choice (log 82). -/
def fpRoundIntegral (_serial : Nat) (rc : BitVec 2) (x : FpNum) : FpResult :=
  match x with
  | .fin neg m e =>
    if 0 ≤ e then { num := x }
    else
      let r := quantize rc neg m e 0
      { num := if r.1 = 0 then .zero neg else .fin neg r.1 0, exc := { inexact := r.2 } }
  | x => { num := x }

/-- R451: the unbiased exponent. It is an integer of at most 15 bits, so no format rounds it: the underflow and inexact that row
17-80 of R429 lists are not signalled (log 82). -/
def fpLogBinary (_serial : Nat) (_rc : BitVec 2) (x : FpNum) : FpResult :=
  match x with
  | .zero _ => { num := .inf true, exc := { zeroDivide := true } }
  | .fin _ m e => { num := .ofInt (e + Nat.log2 m) }
  | .inf _ => { num := .inf false }
  | x => { num := x }

/-- R449: `y * 2^n`. The zero-divide that row 17-121 of R429 lists is not signalled (log 82). -/
def fpScale (n : Int) (y : FpNum) : FpResult :=
  match y with
  | .fin neg m e => { num := .fin neg m (e + n) }
  | y => { num := y }

/-- Is `x < y`, is `x = y`? for numbers that are no NaNs; the two zeros are equal (R467). -/
def fpOrder (x y : FpNum) : Bool × Bool :=
  match x, y with
  | .inf a, .inf b => (a && !b, a == b)
  | .inf a, _ => (a, false)
  | _, .inf b => (!b, false)
  | .zero _, .zero _ => (false, true)
  | .zero _, .fin b _ _ => (!b, false)
  | .fin a _ _, .zero _ => (a, false)
  | .fin a m e, .fin b n g =>
    let i := scaledInt a m e (min e g)
    let j := scaledInt b n g (min e g)
    (decide (i < j), decide (i = j))
  | _, _ => (false, false)

/-! ### NaN operands (R429) -/

/-- Is it a NaN? -/
def FpOperand.isNaN (x : FpOperand) : Bool := x.cls == .quietNaN || x.cls == .signalingNaN

/-- A NaN made quiet. -/
def quietNaN (neg : Bool) (sig : BitVec 64) : FpNum := .nan neg (sig ||| 0x4000000000000000#64)

/-- The NaN of two operands of which one or both are NaNs: the one with the larger significand, made quiet; between
equal significands the sign is not stated (log 45). -/
def nanOf (serial : Nat) (x y : FpNum) : FpNum :=
  match x, y with
  | .nan a s, .nan b t =>
    if t.toNat < s.toNat then quietNaN a s
    else if s.toNat < t.toNat then quietNaN b t
    else if a = b then quietNaN a s
    else quietNaN (Config.freeBit serial 110) s
  | .nan a s, _ => quietNaN a s
  | _, .nan b t => quietNaN b t
  | x, _ => x

/-- The result of an operation with a NaN operand: a signaling NaN is invalid (R429). -/
def nanResult (serial : Nat) (x y : FpOperand) : FpResult :=
  { num := nanOf serial x.num y.num
    exc := { invalid := x.cls == .signalingNaN || y.cls == .signalingNaN } }

/-! ### Operands (R427, R139, R140) -/

/-- The literal +1.0 (R139). -/
def extOne : Ext := 0x3FFF8000000000000000#80

/-- A floating-point source as a decoded operand; `idx` tells a reserved source of this instruction from another
(R139, U1; log 30). -/
def readFSrc (s : State) (f : FpFormat) (idx : Nat) : FSrc → Eff FpOperand
  | .reg r => aligned (groupSize f.words) r (.ok (decodeWords f (s.readRegs r f.words)))
  | .fp k => .ok (decodeExtended s.fps[k.toFin])
  | .zero => .ok { neg := false, cls := .zero, num := .zero false }
  | .one => .ok (decodeExtended extOne)
  | .reserved _ =>
    if Config.reservedSourceFaults s.serial idx then .raise .invalidOpcode
    else .ok (decodeExtended (Config.freeExt s.serial idx))

/-- Does a floating-point source that is a register group start where its size divides (R202, R427)? -/
def fsrcStarts (f : FpFormat) : FSrc → Bool
  | .reg r => Reg.startsGroup (groupSize f.words) r
  | _ => true

/-- The same for a destination. -/
def fdstStarts (f : FpFormat) : FDst → Bool
  | .reg r => Reg.startsGroup (groupSize f.words) r
  | _ => true

/-- A computation over register groups: refused if one of them is misaligned, whatever else is wrong (R202, D14). -/
def ifAligned {α : Type} (b : Bool) (x : Eff α) : Eff α := if b then x else .refuse .registerAlignment

/-- Is the source a floating-point register? -/
def fromFpRegister : FSrc → Bool
  | .fp _ => true
  | _ => false

/-- R428: a reserved encoding in a floating-point register, and a denormalized source without the normalizing mode,
raise the reserved-encoding fault (log 47). -/
def checkEncoding (s : State) (fromFp : Bool) (x : FpOperand) : Eff FpOperand :=
  if (x.cls == .denormal && !s.ac.nm) || (x.cls == .reserved && fromFp) then .raise .fpReservedEncoding
  else .ok x

/-- A source of an arithmetic instruction (R427, R428). -/
def fpSource (s : State) (f : FpFormat) (idx : Nat) (x : FSrc) : Eff FpOperand :=
  (readFSrc s f idx x).bind (checkEncoding s (fromFpRegister x))

/-- Where a floating-point result goes (R140): a general-register group or a floating-point register. -/
inductive FpTarget where
  | regs (r : Reg)
  | fp (k : BitVec 2)
  | stray
deriving DecidableEq, Repr

/-- The destination of an instruction of format `f`; a reserved one is an invalid opcode fault or an undefined result
(U2; log 31). -/
def fpTarget (s : State) (f : FpFormat) : FDst → Eff FpTarget
  | .reg r => aligned (groupSize f.words) r (.ok (.regs r))
  | .fp k => .ok (.fp k)
  | .reserved _ => if Config.reservedDestFaults s.serial then .raise .invalidOpcode else .ok .stray

/-- The format a result is rounded to: extended in a floating-point register (R427, U23; log 74). With a reserved destination
it is the instruction's own, which decides the exceptions only: the model's choice (log 87). -/
def FpTarget.format (f : FpFormat) : FpTarget → FpFormat
  | .regs _ => f
  | .fp _ => .extended
  | .stray => f

/-- Write the bits of a result to its target. -/
def FpTarget.write (t : FpTarget) (f : FpFormat) (x : Ext) (s : State) : State :=
  match t with
  | .regs r => s.setRegs r (wordsOfExt f x)
  | .fp k => { s with fps := s.fps.set k.toFin x }
  | .stray =>
    match Config.strayFloat s.serial with
    | some k => { s with fps := s.fps.set k.toFin (Config.freeExt s.serial 112) }
    | none => s.setReg (Config.strayRegister s.serial) (Config.freeWord s.serial 101)

/-! ### Exceptions, flags, faults (R428) -/

/-- `fp_finish` of R428: exceptions in the order invalid, zero-divide, overflow, underflow, inexact; a masked one sets
its flag, the first unmasked one is raised with the destination unwritten (log 49). A tiny result signals underflow
when unmasked, and when masked only if it is inexact too. -/
def fpFinish (s : State) (x : FpExceptions) (k : State → Res) : Res :=
  let a := s.ac
  let t1 := !a.fim && x.invalid
  let t2 := !a.fzm && x.zeroDivide
  let t3 := !a.fom && x.overflow
  let t4 := !a.fum && x.tiny
  let t5 := !a.fxm && x.inexact
  let fif := a.fif || (a.fim && x.invalid)
  let fzf := a.fzf || (a.fzm && !t1 && x.zeroDivide)
  let fof := a.fof || (a.fom && !t1 && !t2 && x.overflow)
  let fuf := a.fuf || (a.fum && !t1 && !t2 && !t3 && x.tiny && x.inexact)
  let fxf := a.fxf || (a.fxm && !t1 && !t2 && !t3 && !t4 && x.inexact)
  let t : State := { s with ac := { a with fif := fif, fzf := fzf, fof := fof, fuf := fuf, fxf := fxf } }
  if t1 then takeFault .fpInvalid s.ip s.ip t
  else if t2 then takeFault .fpZeroDivide s.ip s.ip t
  else if t3 then takeFault .fpOverflow s.ip s.ip t
  else if t4 then takeFault .fpUnderflow s.ip s.ip t
  else if t5 then takeFault .fpInexact s.ip s.ip t
  else k t

/-- Round an exact result to the target's format, signal its exceptions, write it and move on (R427, R428). -/
def fpDeliver (s : State) (f : FpFormat) (target : FpTarget) (r : FpResult) : Res :=
  let out := roundNum (target.format f) s.ac.rc r.num
  let exc : FpExceptions :=
    { invalid := r.exc.invalid, zeroDivide := r.exc.zeroDivide, overflow := out.exc.overflow, tiny := out.exc.tiny
      inexact := out.exc.inexact || r.exc.inexact }
  fpFinish s exc fun t => .next ((target.write f (encodeNum (target.format f) out.num) t).advance 4#32)

/-! ### Shapes of floating-point instructions -/

/-- The target and the source of an instruction of one source, `idx` telling the sources apart. The destination is looked at
before the source: an order of the model's (log 80). -/
def fpOperand (s : State) (f : FpFormat) (idx : Nat) (src : FSrc) (dst : FDst) : Eff (FpTarget × FpOperand) :=
  ifAligned (fdstStarts f dst && fsrcStarts f src) ((fpTarget s f dst).bind fun t => (fpSource s f idx src).map fun x => (t, x))

/-- The target and the two sources of an instruction; the destination is looked at before the sources, and the first
source before the second: an order of the model's (log 80). -/
def fpOperands (s : State) (f : FpFormat) (src1 src2 : FSrc) (dst : FDst) : Eff (FpTarget × FpOperand × FpOperand) :=
  ifAligned (fdstStarts f dst && fsrcStarts f src1 && fsrcStarts f src2)
    ((fpTarget s f dst).bind fun t =>
      (fpSource s f 1 src1).bind fun x =>
        (fpSource s f 2 src2).map fun y => (t, x, y))

/-- The result of an operation on one source: a NaN propagates, anything else goes to `op`. -/
def fpUnaryResult (s : State) (op : Nat → BitVec 2 → FpNum → FpResult) (x : FpOperand) : FpResult :=
  if x.isNaN then nanResult s.serial x x else op s.serial s.ac.rc x.num

/-- An operation on one source. -/
def fpUnary (s : State) (f : FpFormat) (op : Nat → BitVec 2 → FpNum → FpResult) (src : FSrc) (dst : FDst) : Res :=
  s.commitThen (fpOperand s f 1 src dst) fun p => fpDeliver s f p.1 (fpUnaryResult s op p.2)

/-- The result of an operation on two sources: a NaN propagates, anything else goes to `op`. -/
def fpBinaryResult (s : State) (op : Nat → BitVec 2 → FpNum → FpNum → FpResult) (x y : FpOperand) : FpResult :=
  if x.isNaN || y.isNaN then nanResult s.serial x y else op s.serial s.ac.rc x.num y.num

/-- An operation on two sources, the first of them `src1` (R435 to R442). -/
def fpBinary (s : State) (f : FpFormat) (op : Nat → BitVec 2 → FpNum → FpNum → FpResult) (src1 src2 : FSrc)
    (dst : FDst) : Res :=
  s.commitThen (fpOperands s f src1 src2 dst) fun p => fpDeliver s f p.1 (fpBinaryResult s op p.2.1 p.2.2)

/-- A remainder: AC.as takes an undefined value (R443, U24; log 41). -/
def fpRemainder (s : State) (f : FpFormat) (src1 src2 : FSrc) (dst : FDst) : Res :=
  s.commitThen (fpOperands s f src1 src2 dst) fun p =>
    let r := fpBinaryResult s fpRem p.2.1 p.2.2
    let out := roundNum (p.1.format f) s.ac.rc r.num
    let exc : FpExceptions :=
      { invalid := r.exc.invalid, zeroDivide := r.exc.zeroDivide, overflow := out.exc.overflow, tiny := out.exc.tiny
        inexact := out.exc.inexact }
    fpFinish s exc fun t =>
      .next (((p.1.write f (encodeNum (p.1.format f) out.num) t).setStatus
        ((Config.freeWord s.serial 120).extractLsb' 0 4)).advance 4#32)

/-- Scaling by an integer (R449). -/
def fpScaling (s : State) (f : FpFormat) (n : Int) (src2 : FSrc) (dst : FDst) : Res :=
  s.commitThen (fpOperand s f 2 src2 dst) fun p => fpDeliver s f p.1 (fpUnaryResult s (fun _ _ => fpScale n) p.2)

/-- The integer operand of a scaling: a register, or, with M1 = 1, a value that is not recoverable (U25; log 43). -/
def scaleCount (s : State) : Src → Int
  | .reg r => (s.readReg r).toInt
  | .lit _ => (Config.freeWord s.serial 130).toInt

/-- A comparison (R467, R469): unordered is 0b000; a signaling NaN is invalid, with `ordered` any NaN. -/
def fpCompare (s : State) (f : FpFormat) (ordered : Bool) (src1 src2 : FSrc) : Res :=
  s.commitThen (ifAligned (fsrcStarts f src1 && fsrcStarts f src2)
      ((fpSource s f 1 src1).bind fun x => (fpSource s f 2 src2).map fun y => (x, y))) fun p =>
    let nan := p.1.isNaN || p.2.isNaN
    let exc : FpExceptions :=
      { invalid := if ordered then nan else p.1.cls == .signalingNaN || p.2.cls == .signalingNaN }
    let o := fpOrder p.1.num p.2.num
    fpFinish s exc fun t => .next ((t.setCc (if nan then 0b000 else orderCc o.1 o.2)).advance 4#32)

/-- R471: the class code of bits 5:3 of AC. -/
def FpClass.code : FpClass → BitVec 3
  | .zero => 0b000
  | .denormal => 0b001
  | .normal => 0b010
  | .infinity => 0b011
  | .quietNaN => 0b100
  | .signalingNaN => 0b101
  | .reserved => 0b110

/-- Classification, which never faults for its operand's value (R471). -/
def fpClassify (s : State) (f : FpFormat) (src : FSrc) : Res :=
  s.commitThen (readFSrc s f 1 src) fun x =>
    .next ((s.setStatus (BitVec.ofBool x.neg ++ x.cls.code)).advance 4#32)

/-! ### Moves (R430 to R434) -/

/-- The bits of a source as an extended real, for the moves that change no bit. -/
def rawExt (s : State) (f : FpFormat) (idx : Nat) : FSrc → Ext
  | .reg r =>
    let ws := s.readRegs r f.words
    match f with
    | .real => (ws.getD 0 0).setWidth 80
    | .long => (ws.getD 1 0 ++ ws.getD 0 0).setWidth 80
    | .extended => extOfWords ws
  | .fp k => s.fps[k.toFin]
  | .zero => 0
  | .one => extOne
  | .reserved _ => Config.freeExt s.serial idx

/-- Does a move change the format? General registers hold the instruction's own, floating-point registers and literals
the extended one (R427). -/
def convertingMove (f : FpFormat) (src : FSrc) (target : FpTarget) : Bool :=
  match src, target with
  | .reg _, .regs _ => false
  | .reg _, .stray => false
  | .reg _, .fp _ => f != .extended
  | _, .regs _ => f != .extended
  | _, .stray => f != .extended
  | _, .fp _ => false

/-- A move: within one format the bits are copied, otherwise the value is converted, and then a signaling NaN is
invalid (R430). -/
def fpMove (s : State) (f : FpFormat) (src : FSrc) (dst : FDst) : Res :=
  s.commitThen (fpOperand s f 1 src dst) fun p =>
    if convertingMove f src p.1 then fpDeliver s f p.1 (fpUnaryResult s (fun _ _ x => { num := x }) p.2)
    else .next ((p.1.write f (rawExt s f 1 src) s).advance 4#32)

/-- R433, R434: the magnitude of `src1` with a sign made from that of `src2`. -/
def fpCopySign (s : State) (reversed : Bool) (src1 src2 : FSrc) (dst : FDst) : Res :=
  s.commitThen (fpOperands s .extended src1 src2 dst) fun p =>
    let x := rawExt s .extended 1 src1
    let sign := p.2.2.neg != reversed
    .next ((p.1.write .extended (BitVec.ofBool sign ++ x.extractLsb' 0 79) s).advance 4#32)

/-! ### Conversions (R473 to R478) -/

/-- An integer to a real destination. -/
def fpFromInt (s : State) (n : Eff Int) (dst : FDst) : Res :=
  s.commitThen (n.bind fun i => (fpTarget s .real dst).map fun t => (t, i)) fun p =>
    fpDeliver s .real p.1 { num := .ofInt p.2 }

/-- The integer a finite number rounds to, and whether that changed it; none for a NaN or an infinity. -/
def roundToInt (rc : BitVec 2) : FpNum → Option (Int × Bool)
  | .zero _ => some (0, false)
  | .fin neg m e =>
    let r := quantize rc neg m e 0
    some (if neg then -(r.1 : Int) else (r.1 : Int), r.2)
  | _ => none

/-- The words of an integer result. -/
def wordsOfInt (n : Nat) (i : Int) : List Word :=
  (List.range n).map fun k => (BitVec.ofInt 64 i).extractLsb' (32 * k) 32

/-- Does an integer destination of `n` words start where its size divides (R202)? -/
def dstStarts (n : Nat) : Dst → Bool
  | .reg r => Reg.startsGroup (groupSize n) r
  | .lit _ => true

/-- What a real of integer value `i` leaves in `n` words, and whether that overflows (R475, R504, D16): out of range it is
the low-order bits of `i`; of a NaN or an infinity it is undefined (U27; log 44). -/
def intResult (serial : Nat) (n : Nat) : Option (Int × Bool) → List Word × Bool
  | some (i, _) => (wordsOfInt n i, !fitsInt (32 * n - 1) i)
  | none => ((List.range n).map fun k => Config.freeWord serial (140 + k), true)

/-- A real to an integer of `n` words (R475): integer overflow, or inexact when the value changed. -/
def fpToInt (s : State) (rc : BitVec 2) (n : Nat) (src : FSrc) (dst : Dst) : Res :=
  s.commitThen (ifAligned (dstStarts n dst) (fpSource s .real 1 src)) fun x =>
    let i := roundToInt rc x.num
    let r := intResult s.serial n i
    s.commitThen (dstWriteWords dst r.1 s) fun t =>
      if r.2 then integerOverflow s.ip (t.advance 4#32)
      else
        fpFinish s { inexact := i.elim false Prod.snd } fun u =>
          u.commit ((dstWriteWords dst r.1 u).map (State.advance 4#32))

/-! ### Transcendentals (R453 to R466, D20) -/

/-- The bits of a number in extended form: every operand fits it exactly. -/
def toExtended (x : FpNum) : Ext := encodeNum .extended (roundNum .extended 3 x).num

/-- The number the unit arrives at; it is rounded, and its exceptions are signalled, as those of any result (R428;
log 46). -/
def unitNumber (s : State) (f : FpFormat) (target : FpTarget) (fn : Config.Transcendental) (x y : FpNum) : FpResult :=
  let a := Config.fpFunction fn (target.format f).precision s.ac.rc (toExtended x) (toExtended y)
  { num := if a.m = 0 then .zero a.neg else .fin a.neg a.m a.e, exc := { inexact := a.inexact } }

/-- The unit's answer where the spec leaves open whether it is a number: operands that are infinite, every operand of the
exponential and the epsilon logarithm, whose valid range is open (R425, R455, R457, U26; logs 46, 89), and an angle without a
direction (log 90). An invalid operation gives a quiet NaN (R428). -/
def unitAnswer (s : State) (f : FpFormat) (target : FpTarget) (fn : Config.Transcendental) (x y : FpNum) : FpResult :=
  match Config.fpKind fn (toExtended x) (toExtended y) with
  | .number => unitNumber s f target fn x y
  | .infinite neg => { num := .inf neg }
  | .nan neg sig => { num := .nan neg sig }
  | .invalid => invalidResult s.serial

/-- A transcendental of one operand. -/
def transUnary (s : State) (f : FpFormat) (g : FpTarget → FpNum → FpResult) (src : FSrc) (dst : FDst) : Res :=
  s.commitThen (fpOperand s f 1 src dst) fun p => fpDeliver s f p.1 (fpUnaryResult s (fun _ _ => g p.1) p.2)

/-- A transcendental of two operands. -/
def transBinary (s : State) (f : FpFormat) (g : FpTarget → FpNum → FpNum → FpResult) (src1 src2 : FSrc) (dst : FDst) :
    Res :=
  s.commitThen (fpOperands s f src1 src2 dst) fun p =>
    fpDeliver s f p.1 (fpBinaryResult s (fun _ _ => g p.1) p.2.1 p.2.2)

/-- Is a significand a power of two? -/
def isPowerOfTwo (m : Nat) : Bool := m == 2 ^ Nat.log2 m

/-- R453: `y * log2 x`. Exact when `x` is a power of two and `y` is finite. The sign of the infinity where `x` and `y` are both
zero is the model's choice (log 91). -/
def transLog (s : State) (f : FpFormat) (target : FpTarget) (x y : FpNum) : FpResult :=
  match x, y with
  | .zero _, _ => { num := .inf !y.sign, exc := { zeroDivide := true } }
  | .fin true _ _, _ => invalidResult s.serial
  | .inf true, _ => invalidResult s.serial
  | .fin false _ _, .inf _ => unitAnswer s f target .logBase2 x y
  | .fin false m e, _ =>
    if isPowerOfTwo m then fpMul s.serial s.ac.rc (.ofInt (e + Nat.log2 m)) y else unitNumber s f target .logBase2 x y
  | _, _ => unitAnswer s f target .logBase2 x y

/-- R455: `y * log2 (x + 1)`; the example gives +0.0 for `x` = 0.0 and a positive `y`. Of any other operands the kind of the
result is open: the valid range is not in the source (log 89). -/
def transLogEpsilon (s : State) (f : FpFormat) (target : FpTarget) (x y : FpNum) : FpResult :=
  match x, y with
  | .zero false, .fin false _ _ => { num := .zero false }
  | _, _ => unitAnswer s f target .logEpsilon x y

/-- R457: `2^x - 1`; 0.0 gives 0.0. Of any other operand the kind of the result is open: the valid range is not in the source
(log 89). -/
def transExp (s : State) (f : FpFormat) (target : FpTarget) (x : FpNum) : FpResult :=
  match x with
  | .zero false => { num := .zero false }
  | _ => unitAnswer s f target .exponential x x

/-- Is a number a very small sine argument? Below 2^-32 a sine rounds to its argument in every format (R459; log 81). -/
def verySmall (m : Nat) (e : Int) : Bool := decide (e + Nat.log2 m < -32)

/-- R459: sine; an infinity is invalid, a zero, denormal or very small argument is returned, with inexact as the unit says
and underflow as for any result. -/
def transSin (s : State) (f : FpFormat) (target : FpTarget) (x : FpNum) : FpResult :=
  match x with
  | .inf _ => invalidResult s.serial
  | .zero n => { num := .zero n }
  | .fin n m e =>
    let a := unitNumber s f target .sine x x
    if verySmall m e then { num := .fin n m e, exc := a.exc } else a
  | x => unitNumber s f target .sine x x

/-- R461: cosine; an infinity is invalid, zero gives 1.0. -/
def transCos (s : State) (f : FpFormat) (target : FpTarget) (x : FpNum) : FpResult :=
  match x with
  | .inf _ => invalidResult s.serial
  | .zero _ => { num := .ofInt 1 }
  | _ => unitNumber s f target .cosine x x

/-- R463: tangent; an infinity is invalid, 0.0 gives 0.0. -/
def transTan (s : State) (f : FpFormat) (target : FpTarget) (x : FpNum) : FpResult :=
  match x with
  | .inf _ => invalidResult s.serial
  | .zero false => { num := .zero false }
  | _ => unitNumber s f target .tangent x x

/-- R465: the angle of the point `(x, y)`; with an infinite operand, and of the point (0, 0), the kind of the result is open
(log 90). -/
def transArctan (s : State) (f : FpFormat) (target : FpTarget) (x y : FpNum) : FpResult :=
  match x, y with
  | .inf _, _ => unitAnswer s f target .arctangent x y
  | _, .inf _ => unitAnswer s f target .arctangent x y
  | .zero _, .zero _ => unitAnswer s f target .arctangent x y
  | _, _ => unitNumber s f target .arctangent x y

end Sys2Proof.Machine
end

