-- ==== Sys2Proof/Machine/FloatingPoint.lean ====
section
/-! DEFINITION. The floating-point instructions (48_floating_point.md). -/

namespace Sys2Proof.Machine

/-- `movr` (R430). -/
def execMovr (src : FSrc) (dst : FDst) (s : State) : Res :=
  fpMove s .real src dst
/-- `movrl` (R431). -/
def execMovrl (src : FSrc) (dst : FDst) (s : State) : Res :=
  fpMove s .long src dst
/-- `movre` (R432). -/
def execMovre (src : FSrc) (dst : FDst) (s : State) : Res :=
  fpMove s .extended src dst
/-- `cpysre` (R433). -/
def execCpysre (src1 : FSrc) (src2 : FSrc) (dst : FDst) (s : State) : Res :=
  fpCopySign s false src1 src2 dst
/-- `cpyrsre` (R434). -/
def execCpyrsre (src1 : FSrc) (src2 : FSrc) (dst : FDst) (s : State) : Res :=
  fpCopySign s true src1 src2 dst
/-- `addr` (R435). -/
def execAddr (src1 : FSrc) (src2 : FSrc) (dst : FDst) (s : State) : Res :=
  fpBinary s .real fpAdd src1 src2 dst
/-- `addrl` (R436). -/
def execAddrl (src1 : FSrc) (src2 : FSrc) (dst : FDst) (s : State) : Res :=
  fpBinary s .long fpAdd src1 src2 dst
/-- `subr` (R437). -/
def execSubr (src1 : FSrc) (src2 : FSrc) (dst : FDst) (s : State) : Res :=
  fpBinary s .real fpSub src1 src2 dst
/-- `subrl` (R438). -/
def execSubrl (src1 : FSrc) (src2 : FSrc) (dst : FDst) (s : State) : Res :=
  fpBinary s .long fpSub src1 src2 dst
/-- `mulr` (R439). -/
def execMulr (src1 : FSrc) (src2 : FSrc) (dst : FDst) (s : State) : Res :=
  fpBinary s .real fpMul src1 src2 dst
/-- `mulrl` (R440). -/
def execMulrl (src1 : FSrc) (src2 : FSrc) (dst : FDst) (s : State) : Res :=
  fpBinary s .long fpMul src1 src2 dst
/-- `divr` (R441). -/
def execDivr (src1 : FSrc) (src2 : FSrc) (dst : FDst) (s : State) : Res :=
  fpBinary s .real fpDiv src1 src2 dst
/-- `divrl` (R442). -/
def execDivrl (src1 : FSrc) (src2 : FSrc) (dst : FDst) (s : State) : Res :=
  fpBinary s .long fpDiv src1 src2 dst
/-- `remr` (R443). -/
def execRemr (src1 : FSrc) (src2 : FSrc) (dst : FDst) (s : State) : Res :=
  fpRemainder s .real src1 src2 dst
/-- `remrl` (R444). -/
def execRemrl (src1 : FSrc) (src2 : FSrc) (dst : FDst) (s : State) : Res :=
  fpRemainder s .long src1 src2 dst
/-- `sqrtr` (R445). -/
def execSqrtr (src : FSrc) (dst : FDst) (s : State) : Res :=
  fpUnary s .real fpSqrt src dst
/-- `sqrtrl` (R446). -/
def execSqrtrl (src : FSrc) (dst : FDst) (s : State) : Res :=
  fpUnary s .long fpSqrt src dst
/-- `roundr` (R447). -/
def execRoundr (src : FSrc) (dst : FDst) (s : State) : Res :=
  fpUnary s .real fpRoundIntegral src dst
/-- `roundrl` (R448). -/
def execRoundrl (src : FSrc) (dst : FDst) (s : State) : Res :=
  fpUnary s .long fpRoundIntegral src dst
/-- `scaler` (R449). -/
def execScaler (src1 : Src) (src2 : FSrc) (dst : FDst) (s : State) : Res :=
  fpScaling s .real (scaleCount s src1) src2 dst
/-- `scalerl` (R450). -/
def execScalerl (src1 : Src) (src2 : FSrc) (dst : FDst) (s : State) : Res :=
  fpScaling s .long (scaleCount s src1) src2 dst
/-- `logbnr` (R451). -/
def execLogbnr (src : FSrc) (dst : FDst) (s : State) : Res :=
  fpUnary s .real fpLogBinary src dst
/-- `logbnrl` (R452). -/
def execLogbnrl (src : FSrc) (dst : FDst) (s : State) : Res :=
  fpUnary s .long fpLogBinary src dst
/-- `logr` (R453). -/
def execLogr (src1 : FSrc) (src2 : FSrc) (dst : FDst) (s : State) : Res :=
  transBinary s .real (transLog s .real) src1 src2 dst
/-- `logrl` (R454). -/
def execLogrl (src1 : FSrc) (src2 : FSrc) (dst : FDst) (s : State) : Res :=
  transBinary s .long (transLog s .long) src1 src2 dst
/-- `logepr` (R455). -/
def execLogepr (src1 : FSrc) (src2 : FSrc) (dst : FDst) (s : State) : Res :=
  transBinary s .real (transLogEpsilon s .real) src1 src2 dst
/-- `logeprl` (R456). -/
def execLogeprl (src1 : FSrc) (src2 : FSrc) (dst : FDst) (s : State) : Res :=
  transBinary s .long (transLogEpsilon s .long) src1 src2 dst
/-- `expr` (R457). -/
def execExpr (src : FSrc) (dst : FDst) (s : State) : Res :=
  transUnary s .real (transExp s .real) src dst
/-- `exprl` (R458). -/
def execExprl (src : FSrc) (dst : FDst) (s : State) : Res :=
  transUnary s .long (transExp s .long) src dst
/-- `sinr` (R459). -/
def execSinr (src : FSrc) (dst : FDst) (s : State) : Res :=
  transUnary s .real (transSin s .real) src dst
/-- `sinrl` (R460). -/
def execSinrl (src : FSrc) (dst : FDst) (s : State) : Res :=
  transUnary s .long (transSin s .long) src dst
/-- `cosr` (R461). -/
def execCosr (src : FSrc) (dst : FDst) (s : State) : Res :=
  transUnary s .real (transCos s .real) src dst
/-- `cosrl` (R462). -/
def execCosrl (src : FSrc) (dst : FDst) (s : State) : Res :=
  transUnary s .long (transCos s .long) src dst
/-- `tanr` (R463). -/
def execTanr (src : FSrc) (dst : FDst) (s : State) : Res :=
  transUnary s .real (transTan s .real) src dst
/-- `tanrl` (R464). -/
def execTanrl (src : FSrc) (dst : FDst) (s : State) : Res :=
  transUnary s .long (transTan s .long) src dst
/-- `atanr` (R465). -/
def execAtanr (src1 : FSrc) (src2 : FSrc) (dst : FDst) (s : State) : Res :=
  transBinary s .real (transArctan s .real) src1 src2 dst
/-- `atanrl` (R466). -/
def execAtanrl (src1 : FSrc) (src2 : FSrc) (dst : FDst) (s : State) : Res :=
  transBinary s .long (transArctan s .long) src1 src2 dst
/-- `cmpr` (R467). -/
def execCmpr (src1 : FSrc) (src2 : FSrc) (s : State) : Res :=
  fpCompare s .real false src1 src2
/-- `cmprl` (R468). -/
def execCmprl (src1 : FSrc) (src2 : FSrc) (s : State) : Res :=
  fpCompare s .long false src1 src2
/-- `cmpor` (R469). -/
def execCmpor (src1 : FSrc) (src2 : FSrc) (s : State) : Res :=
  fpCompare s .real true src1 src2
/-- `cmporl` (R470). -/
def execCmporl (src1 : FSrc) (src2 : FSrc) (s : State) : Res :=
  fpCompare s .long true src1 src2
/-- `classr` (R471). -/
def execClassr (src : FSrc) (s : State) : Res :=
  fpClassify s .real src
/-- `classrl` (R472). -/
def execClassrl (src : FSrc) (s : State) : Res :=
  fpClassify s .long src
/-- `cvtir` (R473). -/
def execCvtir (src : Src) (dst : FDst) (s : State) : Res :=
  fpFromInt s (.ok (srcVal s src).toInt) dst
/-- `cvtilr` (R474). -/
def execCvtilr (src : Src) (dst : FDst) (s : State) : Res :=
  fpFromInt s ((srcWords s 2 src).map fun ws => (ws.getD 1 0 ++ ws.getD 0 0).toInt) dst
/-- `cvtri` (R475). -/
def execCvtri (src : FSrc) (dst : Dst) (s : State) : Res :=
  fpToInt s s.ac.rc 1 src dst
/-- `cvtril` (R476). -/
def execCvtril (src : FSrc) (dst : Dst) (s : State) : Res :=
  fpToInt s s.ac.rc 2 src dst
/-- `cvtzri` (R477). -/
def execCvtzri (src : FSrc) (dst : Dst) (s : State) : Res :=
  fpToInt s 3#2 1 src dst
/-- `cvtzril` (R478). -/
def execCvtzril (src : FSrc) (dst : Dst) (s : State) : Res :=
  fpToInt s 3#2 2 src dst

end Sys2Proof.Machine
end

