-- ==== Sys2Proof/Machine/Logical.lean ====
section
/-! DEFINITION. Logical, bit, bit-field and byte-scan instructions (42_logical_bit.md). -/

namespace Sys2Proof.Machine

/-- The single-bit mask of a bit position taken modulo 32 (R240). -/
def bitMask (pos : Word) : Word := 1#32 <<< (pos.toNat % 32)

/-! ### Logical -/

/-- `and` (R241). -/
def execAnd (src1 src2 : Src) (dst : Dst) (s : State) : Res := ordinalOp s src1 src2 dst fun a b => b &&& a
/-- `andnot` (R242). -/
def execAndnot (src1 src2 : Src) (dst : Dst) (s : State) : Res := ordinalOp s src1 src2 dst fun a b => b &&& ~~~a
/-- `notand` (R243). -/
def execNotand (src1 src2 : Src) (dst : Dst) (s : State) : Res := ordinalOp s src1 src2 dst fun a b => ~~~b &&& a
/-- `nand` (R244). -/
def execNand (src1 src2 : Src) (dst : Dst) (s : State) : Res := ordinalOp s src1 src2 dst fun a b => ~~~(b &&& a)
/-- `or` (R245). -/
def execOr (src1 src2 : Src) (dst : Dst) (s : State) : Res := ordinalOp s src1 src2 dst fun a b => b ||| a
/-- `nor` (R246). -/
def execNor (src1 src2 : Src) (dst : Dst) (s : State) : Res := ordinalOp s src1 src2 dst fun a b => ~~~(b ||| a)
/-- `ornot` (R247). -/
def execOrnot (src1 src2 : Src) (dst : Dst) (s : State) : Res := ordinalOp s src1 src2 dst fun a b => b ||| ~~~a
/-- `notor` (R248). -/
def execNotor (src1 src2 : Src) (dst : Dst) (s : State) : Res := ordinalOp s src1 src2 dst fun a b => ~~~b ||| a
/-- `xor` (R249). -/
def execXor (src1 src2 : Src) (dst : Dst) (s : State) : Res := ordinalOp s src1 src2 dst fun a b => b ^^^ a
/-- `xnor` (R250). -/
def execXnor (src1 src2 : Src) (dst : Dst) (s : State) : Res := ordinalOp s src1 src2 dst fun a b => ~~~(b ^^^ a)
/-- `not` (R251). -/
def execNot (src : Src) (dst : Dst) (s : State) : Res := s.result dst (~~~(srcVal s src))

/-! ### Bit -/

/-- `setbit` (R252). -/
def execSetbit (src1 src2 : Src) (dst : Dst) (s : State) : Res := ordinalOp s src1 src2 dst fun p v => v ||| bitMask p
/-- `clrbit` (R253). -/
def execClrbit (src1 src2 : Src) (dst : Dst) (s : State) : Res := ordinalOp s src1 src2 dst fun p v => v &&& ~~~bitMask p
/-- `notbit` (R254). -/
def execNotbit (src1 src2 : Src) (dst : Dst) (s : State) : Res := ordinalOp s src1 src2 dst fun p v => v ^^^ bitMask p
/-- `alterbit` (R255). -/
def execAlterbit (src1 src2 : Src) (dst : Dst) (s : State) : Res :=
  ordinalOp s src1 src2 dst fun p v => if s.carry then v ||| bitMask p else v &&& ~~~bitMask p
/-- `chkbit` (R256). -/
def execChkbit (src1 src2 : Src) (s : State) : Res :=
  s.resultOnlyCc (foundCc ((srcVal s src2).getLsbD ((srcVal s src1).toNat % 32)))

/-- The result of a search for the highest bit set: its position and true, or all ones and false (R257, R258). -/
def scanResult (s : State) (dst : Dst) (w : Word) : Res :=
  match highestBelow w 32 with
  | some i => s.resultCc dst (BitVec.ofNat 32 i) 0b010
  | none => s.resultCc dst 0xFFFFFFFF#32 0b000

/-- `scanbit` (R257). -/
def execScanbit (src : Src) (dst : Dst) (s : State) : Res := scanResult s dst (srcVal s src)
/-- `spanbit` (R258). -/
def execSpanbit (src : Src) (dst : Dst) (s : State) : Res := scanResult s dst (~~~(srcVal s src))

/-! ### Bit field and byte scan -/

/-- The low `n` bits, all of them from 32 on (R259). -/
def lowMask (n : Nat) : Word := if 32 ≤ n then 0xFFFFFFFF#32 else BitVec.ofNat 32 (2 ^ n - 1)

/-- `extract` (R259): a bit position above 31 leaves an undefined value (U12; log 36). -/
def execExtract (src1 src2 : Src) (dst : Dst) (s : State) : Res :=
  let p := (srcVal s src1).toNat
  s.result dst
    (if p < 32 then dstVal s dst >>> p &&& lowMask (srcVal s src2).toNat else Config.freeWord s.serial 104)
/-- `modify` (R260). -/
def execModify (src1 src2 : Src) (dst : Dst) (s : State) : Res :=
  s.result dst (mergeMask (srcVal s src1) (srcVal s src2) (dstVal s dst))

/-- Do two words agree in byte `k`? -/
def sameByte (a b : Word) (k : Nat) : Bool := byteOf a k == byteOf b k

/-- `scanbyte` (R261). -/
def execScanbyte (src1 src2 : Src) (s : State) : Res :=
  let a := srcVal s src1
  let b := srcVal s src2
  s.resultOnlyCc (foundCc (sameByte a b 0 || sameByte a b 1 || sameByte a b 2 || sameByte a b 3))

end Sys2Proof.Machine
end

