-- ==== Sys2Proof/Machine/ProcessMgmt.lean ====
section
/-! DEFINITION. Process-management instructions (46_process_mgmt.md): outside the scope in physical mode (R6, R390), but
for `ldtime` and the mode check of `resumprcs`. -/

namespace Sys2Proof.Machine

/-- `send` (R391). -/
def execSend (_src1 _src2 _src3 : Src) (_s : State) : Res := .refused (.processManagement "send")
/-- `sendserv` (R392). -/
def execSendserv (_src : Src) (_s : State) : Res := .refused (.processManagement "sendserv")
/-- `receive` (R393). -/
def execReceive (_src : Src) (_dst : Dst) (_s : State) : Res := .refused (.processManagement "receive")
/-- `condrec` (R394). -/
def execCondrec (_src : Src) (_dst : Dst) (_s : State) : Res := .refused (.processManagement "condrec")
/-- `signal` (R395). -/
def execSignal (_src : Src) (_s : State) : Res := .refused (.processManagement "signal")
/-- `wait` (R396). -/
def execWait (_src : Src) (_s : State) : Res := .refused (.processManagement "wait")
/-- `condwait` (R397). -/
def execCondwait (_src : Src) (_s : State) : Res := .refused (.processManagement "condwait")
/-- `schedprcs` (R398). -/
def execSchedprcs (_src : Src) (_s : State) : Res := .refused (.processManagement "schedprcs")
/-- `saveprcs` (R399). -/
def execSaveprcs (_s : State) : Res := .refused (.processManagement "saveprcs")
/-- `resumprcs` (R400): Type.Mismatch in user mode (R565; log 66). -/
def execResumprcs (_src : Src) (s : State) : Res :=
  if s.supervisor then .refused (.processManagement "resumprcs") else takeFault .mismatch s.ip s.ip s
/-- `ldtime` (R401): no process runs, so the two words are undefined (U18; log 59). -/
def execLdtime (dst : Dst) (s : State) : Res :=
  s.resultWords dst [Config.freeWord s.serial 107, Config.freeWord s.serial 108]

end Sys2Proof.Machine
end

