-- ==== Sys2Proof/Machine/StringDecimal.lean ====
section
/-! DEFINITION. String and decimal instructions (47_string_decimal.md). -/

namespace Sys2Proof.Machine

/-! ### String instructions -/

/-- Copy one byte; a free byte of RAM stays that free byte. -/
def State.copyByte (d a : Word) (s : State) : State :=
  match kindAt s.memMap a.toNat, keyGet a.toNat s.mem.holes with
  | .ram, some f => s.writeFreeByte d f
  | .rom, some f => s.writeFreeByte d f
  | _, _ => s.writeByte d (s.readByte a)

/-- Copy `n` bytes from the lowest address up. -/
def State.copyUp (d a : Word) : Nat → State → State
  | 0, s => s
  | n + 1, s => State.copyUp (d + 1#32) (a + 1#32) n (s.copyByte d a)

/-- Copy `n` bytes from the highest address down. -/
def State.copyDown (d a : Word) : Nat → State → State
  | 0, s => s
  | n + 1, s => State.copyDown d a n (s.copyByte (d + BitVec.ofNat 32 n) (a + BitVec.ofNat 32 n))

/-- R411: the direction is chosen so that overlapping strings copy correctly. -/
def State.moveString (d a : Word) (n : Nat) (s : State) : State :=
  if a.toNat ≤ d.toNat then s.copyDown d a n else s.copyUp d a n

/-- Run a string write once its source is readable (log 38). -/
def stringWrite (s : State) (a : Word) (n : Nat) (t : State) : Res :=
  s.commit (if s.readable a n then .ok (t.advance 4#32) else .raise .badAccess)

/-- `movstr` (R411). -/
def execMovstr (src1 src2 src3 : Src) (s : State) : Res :=
  let n := (srcVal s src3).toNat
  stringWrite s (srcVal s src2) n (s.moveString (srcVal s src1) (srcVal s src2) n)

/-- Do two strings of `n` bytes share an address (modulo 2^32)? -/
def stringsOverlap (d a : Word) (n : Nat) : Bool := decide ((d - a).toNat < n) || decide ((a - d).toNat < n)

/-- Leave `n` bytes undefined. -/
def State.freeBytes (d : Word) : Nat → State → State
  | 0, s => s
  | n + 1, s => State.freeBytes (d + 1#32) n (s.writeFreeByte d ⟨s.serial, 400 + n, 0⟩)

/-- `movqstr` (R412): overlapping strings leave the destination undefined (U19; log 38). -/
def execMovqstr (src1 src2 src3 : Src) (s : State) : Res :=
  let d := srcVal s src1
  let a := srcVal s src2
  let n := (srcVal s src3).toNat
  stringWrite s a n (if stringsOverlap d a n then s.freeBytes d n else s.copyUp d a n)

/-- The condition code of a comparison of `n` bytes, at the first that differ (R413). -/
def compareStrings (s : State) (a b : Word) : Nat → Eff (BitVec 3)
  | 0 => .ok 0b010
  | n + 1 =>
    if s.readable a 1 && s.readable b 1 then
      if s.readByte a = s.readByte b then compareStrings s (a + 1#32) (b + 1#32) n
      else .ok (orderCc (decide ((s.readByte a).toNat < (s.readByte b).toNat)) false)
    else .raise .badAccess

/-- `cmpstr` (R413). -/
def execCmpstr (src1 src2 src3 : Src) (s : State) : Res :=
  s.commit ((compareStrings s (srcVal s src1) (srcVal s src2) (srcVal s src3).toNat).map fun cc =>
    (s.setCc cc).advance 4#32)

/-- Fill `n` bytes with the bytes of `v` from byte `k` on, over and over (R414). -/
def State.fillBytes (v d : Word) (k : Nat) : Nat → State → State
  | 0, s => s
  | n + 1, s => State.fillBytes v (d + 1#32) ((k + 1) % 4) n (s.writeByte d (byteOf v k))

/-- `fill` (R414). -/
def execFill (src1 src2 src3 : Src) (s : State) : Res :=
  .next ((s.fillBytes (srcVal s src2) (srcVal s src1) 0 (srcVal s src3).toNat).advance 4#32)

/-! ### Decimal instructions -/

/-- `dmovt` (R415): 0b000 for an ASCII digit (U20; log 39). -/
def execDmovt (src : Src) (dst : Dst) (s : State) : Res :=
  let b := ((srcVal s src).extractLsb' 0 8).toNat
  s.resultCc dst (srcVal s src) (foundCc (!(decide (0x30 ≤ b) && decide (b ≤ 0x39))))

/-- A digit and a carry put into `src2`'s word and the condition code; a nibble above 9 leaves both undefined (R416,
U21; log 40). -/
def decimalResult (s : State) (src1 src2 : Src) (dst : Dst) (digit : Nat) (carry : Bool) : Res :=
  let x := ((srcVal s src1).extractLsb' 0 4).toNat
  let y := ((srcVal s src2).extractLsb' 0 4).toNat
  let legal := decide (x ≤ 9) && decide (y ≤ 9)
  let d : BitVec 4 := if legal then BitVec.ofNat 4 digit else (Config.freeWord s.serial 109).extractLsb' 0 4
  let c := if legal then carry else Config.freeBit s.serial 109
  s.resultCc dst ((srcVal s src2).extractLsb' 4 28 ++ d) (0#1 ++ BitVec.ofBool c ++ 0#1)

/-- `daddc` (R416). -/
def execDaddc (src1 src2 : Src) (dst : Dst) (s : State) : Res :=
  let n := ((srcVal s src2).extractLsb' 0 4).toNat + ((srcVal s src1).extractLsb' 0 4).toNat + s.carry.toNat
  decimalResult s src1 src2 dst (if 9 < n then n - 10 else n) (decide (9 < n))

/-- `dsubc` (R417): carry 1 means no borrow. -/
def execDsubc (src1 src2 : Src) (dst : Dst) (s : State) : Res :=
  let n : Int := ((srcVal s src2).extractLsb' 0 4).toNat - ((srcVal s src1).extractLsb' 0 4).toNat - 1 + s.carry.toNat
  decimalResult s src1 src2 dst (if 0 ≤ n then n.toNat else (n + 10).toNat) (decide (0 ≤ n))

end Sys2Proof.Machine
end

