-- ==== Sys2Proof/Machine/Dispatch.lean ====
section
/-! DEFINITION. The meaning of each instruction, one arm for each constructor. -/

namespace Sys2Proof.Machine

def exec (i : Instr) (s : State) : Host.Outcome State Fault Refusal :=
  match i with
  | .b disp => Sys2Proof.Machine.execB disp s
  | .call disp => Sys2Proof.Machine.execCall disp s
  | .ret => Sys2Proof.Machine.execRet s
  | .bal disp => Sys2Proof.Machine.execBal disp s
  | .bno disp => Sys2Proof.Machine.execBno disp s
  | .bg disp => Sys2Proof.Machine.execBg disp s
  | .be disp => Sys2Proof.Machine.execBe disp s
  | .bge disp => Sys2Proof.Machine.execBge disp s
  | .bl disp => Sys2Proof.Machine.execBl disp s
  | .bne disp => Sys2Proof.Machine.execBne disp s
  | .ble disp => Sys2Proof.Machine.execBle disp s
  | .bo disp => Sys2Proof.Machine.execBo disp s
  | .faultno => Sys2Proof.Machine.execFaultno s
  | .faultg => Sys2Proof.Machine.execFaultg s
  | .faulte => Sys2Proof.Machine.execFaulte s
  | .faultge => Sys2Proof.Machine.execFaultge s
  | .faultl => Sys2Proof.Machine.execFaultl s
  | .faultne => Sys2Proof.Machine.execFaultne s
  | .faultle => Sys2Proof.Machine.execFaultle s
  | .faulto => Sys2Proof.Machine.execFaulto s
  | .testno dst => Sys2Proof.Machine.execTestno dst s
  | .testg dst => Sys2Proof.Machine.execTestg dst s
  | .teste dst => Sys2Proof.Machine.execTeste dst s
  | .testge dst => Sys2Proof.Machine.execTestge dst s
  | .testl dst => Sys2Proof.Machine.execTestl dst s
  | .testne dst => Sys2Proof.Machine.execTestne dst s
  | .testle dst => Sys2Proof.Machine.execTestle dst s
  | .testo dst => Sys2Proof.Machine.execTesto dst s
  | .bbc src1 src2 disp => Sys2Proof.Machine.execBbc src1 src2 disp s
  | .cmpobg src1 src2 disp => Sys2Proof.Machine.execCmpobg src1 src2 disp s
  | .cmpobe src1 src2 disp => Sys2Proof.Machine.execCmpobe src1 src2 disp s
  | .cmpobge src1 src2 disp => Sys2Proof.Machine.execCmpobge src1 src2 disp s
  | .cmpobl src1 src2 disp => Sys2Proof.Machine.execCmpobl src1 src2 disp s
  | .cmpobne src1 src2 disp => Sys2Proof.Machine.execCmpobne src1 src2 disp s
  | .cmpoble src1 src2 disp => Sys2Proof.Machine.execCmpoble src1 src2 disp s
  | .bbs src1 src2 disp => Sys2Proof.Machine.execBbs src1 src2 disp s
  | .cmpibno src1 src2 disp => Sys2Proof.Machine.execCmpibno src1 src2 disp s
  | .cmpibg src1 src2 disp => Sys2Proof.Machine.execCmpibg src1 src2 disp s
  | .cmpibe src1 src2 disp => Sys2Proof.Machine.execCmpibe src1 src2 disp s
  | .cmpibge src1 src2 disp => Sys2Proof.Machine.execCmpibge src1 src2 disp s
  | .cmpibl src1 src2 disp => Sys2Proof.Machine.execCmpibl src1 src2 disp s
  | .cmpibne src1 src2 disp => Sys2Proof.Machine.execCmpibne src1 src2 disp s
  | .cmpible src1 src2 disp => Sys2Proof.Machine.execCmpible src1 src2 disp s
  | .cmpibo src1 src2 disp => Sys2Proof.Machine.execCmpibo src1 src2 disp s
  | .ldob reg mem => Sys2Proof.Machine.execLdob reg mem s
  | .stob reg mem => Sys2Proof.Machine.execStob reg mem s
  | .bx mem => Sys2Proof.Machine.execBx mem s
  | .balx reg mem => Sys2Proof.Machine.execBalx reg mem s
  | .callx mem => Sys2Proof.Machine.execCallx mem s
  | .ldos reg mem => Sys2Proof.Machine.execLdos reg mem s
  | .stos reg mem => Sys2Proof.Machine.execStos reg mem s
  | .lda reg mem => Sys2Proof.Machine.execLda reg mem s
  | .ld reg mem => Sys2Proof.Machine.execLd reg mem s
  | .st reg mem => Sys2Proof.Machine.execSt reg mem s
  | .ldl reg mem => Sys2Proof.Machine.execLdl reg mem s
  | .stl reg mem => Sys2Proof.Machine.execStl reg mem s
  | .ldt reg mem => Sys2Proof.Machine.execLdt reg mem s
  | .stt reg mem => Sys2Proof.Machine.execStt reg mem s
  | .ldq reg mem => Sys2Proof.Machine.execLdq reg mem s
  | .stq reg mem => Sys2Proof.Machine.execStq reg mem s
  | .ldib reg mem => Sys2Proof.Machine.execLdib reg mem s
  | .stib reg mem => Sys2Proof.Machine.execStib reg mem s
  | .ldis reg mem => Sys2Proof.Machine.execLdis reg mem s
  | .stis reg mem => Sys2Proof.Machine.execStis reg mem s
  | .notbit src1 src2 dst => Sys2Proof.Machine.execNotbit src1 src2 dst s
  | .and src1 src2 dst => Sys2Proof.Machine.execAnd src1 src2 dst s
  | .andnot src1 src2 dst => Sys2Proof.Machine.execAndnot src1 src2 dst s
  | .setbit src1 src2 dst => Sys2Proof.Machine.execSetbit src1 src2 dst s
  | .notand src1 src2 dst => Sys2Proof.Machine.execNotand src1 src2 dst s
  | .xor src1 src2 dst => Sys2Proof.Machine.execXor src1 src2 dst s
  | .or src1 src2 dst => Sys2Proof.Machine.execOr src1 src2 dst s
  | .nor src1 src2 dst => Sys2Proof.Machine.execNor src1 src2 dst s
  | .xnor src1 src2 dst => Sys2Proof.Machine.execXnor src1 src2 dst s
  | .not src dst => Sys2Proof.Machine.execNot src dst s
  | .ornot src1 src2 dst => Sys2Proof.Machine.execOrnot src1 src2 dst s
  | .clrbit src1 src2 dst => Sys2Proof.Machine.execClrbit src1 src2 dst s
  | .notor src1 src2 dst => Sys2Proof.Machine.execNotor src1 src2 dst s
  | .nand src1 src2 dst => Sys2Proof.Machine.execNand src1 src2 dst s
  | .alterbit src1 src2 dst => Sys2Proof.Machine.execAlterbit src1 src2 dst s
  | .addo src1 src2 dst => Sys2Proof.Machine.execAddo src1 src2 dst s
  | .addi src1 src2 dst => Sys2Proof.Machine.execAddi src1 src2 dst s
  | .subo src1 src2 dst => Sys2Proof.Machine.execSubo src1 src2 dst s
  | .subi src1 src2 dst => Sys2Proof.Machine.execSubi src1 src2 dst s
  | .shro src1 src2 dst => Sys2Proof.Machine.execShro src1 src2 dst s
  | .shrdi src1 src2 dst => Sys2Proof.Machine.execShrdi src1 src2 dst s
  | .shri src1 src2 dst => Sys2Proof.Machine.execShri src1 src2 dst s
  | .shlo src1 src2 dst => Sys2Proof.Machine.execShlo src1 src2 dst s
  | .rotate src1 src2 dst => Sys2Proof.Machine.execRotate src1 src2 dst s
  | .shli src1 src2 dst => Sys2Proof.Machine.execShli src1 src2 dst s
  | .cmpo src1 src2 => Sys2Proof.Machine.execCmpo src1 src2 s
  | .cmpi src1 src2 => Sys2Proof.Machine.execCmpi src1 src2 s
  | .concmpo src1 src2 => Sys2Proof.Machine.execConcmpo src1 src2 s
  | .concmpi src1 src2 => Sys2Proof.Machine.execConcmpi src1 src2 s
  | .cmpinco src1 src2 dst => Sys2Proof.Machine.execCmpinco src1 src2 dst s
  | .cmpinci src1 src2 dst => Sys2Proof.Machine.execCmpinci src1 src2 dst s
  | .cmpdeco src1 src2 dst => Sys2Proof.Machine.execCmpdeco src1 src2 dst s
  | .cmpdeci src1 src2 dst => Sys2Proof.Machine.execCmpdeci src1 src2 dst s
  | .scanbyte src1 src2 => Sys2Proof.Machine.execScanbyte src1 src2 s
  | .chkbit src1 src2 => Sys2Proof.Machine.execChkbit src1 src2 s
  | .addc src1 src2 dst => Sys2Proof.Machine.execAddc src1 src2 dst s
  | .subc src1 src2 dst => Sys2Proof.Machine.execSubc src1 src2 dst s
  | .mov src dst => Sys2Proof.Machine.execMov src dst s
  | .movl src dst => Sys2Proof.Machine.execMovl src dst s
  | .movt src dst => Sys2Proof.Machine.execMovt src dst s
  | .movq src dst => Sys2Proof.Machine.execMovq src dst s
  | .synmov src1 src2 => Sys2Proof.Machine.execSynmov src1 src2 s
  | .synmovl src1 src2 => Sys2Proof.Machine.execSynmovl src1 src2 s
  | .synmovq src1 src2 => Sys2Proof.Machine.execSynmovq src1 src2 s
  | .cmpstr src1 src2 src3 => Sys2Proof.Machine.execCmpstr src1 src2 src3 s
  | .movqstr src1 src2 src3 => Sys2Proof.Machine.execMovqstr src1 src2 src3 s
  | .movstr src1 src2 src3 => Sys2Proof.Machine.execMovstr src1 src2 src3 s
  | .atmod src1 src2 dst => Sys2Proof.Machine.execAtmod src1 src2 dst s
  | .atadd src1 src2 dst => Sys2Proof.Machine.execAtadd src1 src2 dst s
  | .inspacc src dst => Sys2Proof.Machine.execInspacc src dst s
  | .ldphy src dst => Sys2Proof.Machine.execLdphy src dst s
  | .synld src dst => Sys2Proof.Machine.execSynld src dst s
  | .fill src1 src2 src3 => Sys2Proof.Machine.execFill src1 src2 src3 s
  | .spanbit src dst => Sys2Proof.Machine.execSpanbit src dst s
  | .scanbit src dst => Sys2Proof.Machine.execScanbit src dst s
  | .daddc src1 src2 dst => Sys2Proof.Machine.execDaddc src1 src2 dst s
  | .dsubc src1 src2 dst => Sys2Proof.Machine.execDsubc src1 src2 dst s
  | .dmovt src dst => Sys2Proof.Machine.execDmovt src dst s
  | .modac src1 src2 dst => Sys2Proof.Machine.execModac src1 src2 dst s
  | .condrec src dst => Sys2Proof.Machine.execCondrec src dst s
  | .modify src1 src2 dst => Sys2Proof.Machine.execModify src1 src2 dst s
  | .extract src1 src2 dst => Sys2Proof.Machine.execExtract src1 src2 dst s
  | .modtc src1 src2 dst => Sys2Proof.Machine.execModtc src1 src2 dst s
  | .modpc src1 src2 dst => Sys2Proof.Machine.execModpc src1 src2 dst s
  | .receive src dst => Sys2Proof.Machine.execReceive src dst s
  | .calls src => Sys2Proof.Machine.execCalls src s
  | .send src1 src2 src3 => Sys2Proof.Machine.execSend src1 src2 src3 s
  | .sendserv src => Sys2Proof.Machine.execSendserv src s
  | .resumprcs src => Sys2Proof.Machine.execResumprcs src s
  | .schedprcs src => Sys2Proof.Machine.execSchedprcs src s
  | .saveprcs => Sys2Proof.Machine.execSaveprcs s
  | .condwait src => Sys2Proof.Machine.execCondwait src s
  | .wait src => Sys2Proof.Machine.execWait src s
  | .signal src => Sys2Proof.Machine.execSignal src s
  | .mark => Sys2Proof.Machine.execMark s
  | .fmark => Sys2Proof.Machine.execFmark s
  | .flushreg => Sys2Proof.Machine.execFlushreg s
  | .syncf => Sys2Proof.Machine.execSyncf s
  | .emul src1 src2 dst => Sys2Proof.Machine.execEmul src1 src2 dst s
  | .ediv src1 src2 dst => Sys2Proof.Machine.execEdiv src1 src2 dst s
  | .ldtime dst => Sys2Proof.Machine.execLdtime dst s
  | .cvtir src dst => Sys2Proof.Machine.execCvtir src dst s
  | .cvtilr src dst => Sys2Proof.Machine.execCvtilr src dst s
  | .scalerl src1 src2 dst => Sys2Proof.Machine.execScalerl src1 src2 dst s
  | .scaler src1 src2 dst => Sys2Proof.Machine.execScaler src1 src2 dst s
  | .atanr src1 src2 dst => Sys2Proof.Machine.execAtanr src1 src2 dst s
  | .logepr src1 src2 dst => Sys2Proof.Machine.execLogepr src1 src2 dst s
  | .logr src1 src2 dst => Sys2Proof.Machine.execLogr src1 src2 dst s
  | .remr src1 src2 dst => Sys2Proof.Machine.execRemr src1 src2 dst s
  | .cmpor src1 src2 => Sys2Proof.Machine.execCmpor src1 src2 s
  | .cmpr src1 src2 => Sys2Proof.Machine.execCmpr src1 src2 s
  | .sqrtr src dst => Sys2Proof.Machine.execSqrtr src dst s
  | .expr src dst => Sys2Proof.Machine.execExpr src dst s
  | .logbnr src dst => Sys2Proof.Machine.execLogbnr src dst s
  | .roundr src dst => Sys2Proof.Machine.execRoundr src dst s
  | .sinr src dst => Sys2Proof.Machine.execSinr src dst s
  | .cosr src dst => Sys2Proof.Machine.execCosr src dst s
  | .tanr src dst => Sys2Proof.Machine.execTanr src dst s
  | .classr src => Sys2Proof.Machine.execClassr src s
  | .atanrl src1 src2 dst => Sys2Proof.Machine.execAtanrl src1 src2 dst s
  | .logeprl src1 src2 dst => Sys2Proof.Machine.execLogeprl src1 src2 dst s
  | .logrl src1 src2 dst => Sys2Proof.Machine.execLogrl src1 src2 dst s
  | .remrl src1 src2 dst => Sys2Proof.Machine.execRemrl src1 src2 dst s
  | .cmporl src1 src2 => Sys2Proof.Machine.execCmporl src1 src2 s
  | .cmprl src1 src2 => Sys2Proof.Machine.execCmprl src1 src2 s
  | .sqrtrl src dst => Sys2Proof.Machine.execSqrtrl src dst s
  | .exprl src dst => Sys2Proof.Machine.execExprl src dst s
  | .logbnrl src dst => Sys2Proof.Machine.execLogbnrl src dst s
  | .roundrl src dst => Sys2Proof.Machine.execRoundrl src dst s
  | .sinrl src dst => Sys2Proof.Machine.execSinrl src dst s
  | .cosrl src dst => Sys2Proof.Machine.execCosrl src dst s
  | .tanrl src dst => Sys2Proof.Machine.execTanrl src dst s
  | .classrl src => Sys2Proof.Machine.execClassrl src s
  | .cvtri src dst => Sys2Proof.Machine.execCvtri src dst s
  | .cvtril src dst => Sys2Proof.Machine.execCvtril src dst s
  | .cvtzri src dst => Sys2Proof.Machine.execCvtzri src dst s
  | .cvtzril src dst => Sys2Proof.Machine.execCvtzril src dst s
  | .movr src dst => Sys2Proof.Machine.execMovr src dst s
  | .movrl src dst => Sys2Proof.Machine.execMovrl src dst s
  | .movre src dst => Sys2Proof.Machine.execMovre src dst s
  | .cpysre src1 src2 dst => Sys2Proof.Machine.execCpysre src1 src2 dst s
  | .cpyrsre src1 src2 dst => Sys2Proof.Machine.execCpyrsre src1 src2 dst s
  | .mulo src1 src2 dst => Sys2Proof.Machine.execMulo src1 src2 dst s
  | .remo src1 src2 dst => Sys2Proof.Machine.execRemo src1 src2 dst s
  | .divo src1 src2 dst => Sys2Proof.Machine.execDivo src1 src2 dst s
  | .muli src1 src2 dst => Sys2Proof.Machine.execMuli src1 src2 dst s
  | .remi src1 src2 dst => Sys2Proof.Machine.execRemi src1 src2 dst s
  | .modi src1 src2 dst => Sys2Proof.Machine.execModi src1 src2 dst s
  | .divi src1 src2 dst => Sys2Proof.Machine.execDivi src1 src2 dst s
  | .divr src1 src2 dst => Sys2Proof.Machine.execDivr src1 src2 dst s
  | .mulr src1 src2 dst => Sys2Proof.Machine.execMulr src1 src2 dst s
  | .subr src1 src2 dst => Sys2Proof.Machine.execSubr src1 src2 dst s
  | .addr src1 src2 dst => Sys2Proof.Machine.execAddr src1 src2 dst s
  | .divrl src1 src2 dst => Sys2Proof.Machine.execDivrl src1 src2 dst s
  | .mulrl src1 src2 dst => Sys2Proof.Machine.execMulrl src1 src2 dst s
  | .subrl src1 src2 dst => Sys2Proof.Machine.execSubrl src1 src2 dst s
  | .addrl src1 src2 dst => Sys2Proof.Machine.execAddrl src1 src2 dst s

end Sys2Proof.Machine
end

