-- ==== Sys2Proof/Machine/Fetch.lean ====
section
/-! DEFINITION. Fetching an instruction, the trace events around it, and the events of the environment (R81, R120, R134,
R530, R560, R562). -/

namespace Sys2Proof.Machine

/-- The values other than `now` that a word stored to since the last purge has had (R120, D5). -/
def State.olderWords (s : State) (a now : Word) : List Word :=
  ((s.staleAt a).map fun o => o.word.val).filter (· != now)

/-- Fetch a word of code, or Machine.BadAccess (R503): one stored to since the last purge is seen as it is or as it was, and
which is not determined (R120, D5, U29; log 20). -/
def State.fetchWord (s : State) (a : Word) : Eff Word :=
  (s.loadWord a).map fun now =>
    match s.olderWords a now with
    | [] => now
    | older => (now :: older).getD (Config.staleFetch s.serial a.toNat % (older.length + 1)) now

/-- What a decoding comes to: reserved modes and scales and unknown opcodes are Operation.InvalidOpcode (R165, R502;
log 28), reserved bits are outside the model (R166; log 27). -/
def decoded : DecodeResult → Eff Instr
  | .ok (i, _) => .ok i
  | .error .unknownOpcode => .raise .invalidOpcode
  | .error .reservedMode => .raise .invalidOpcode
  | .error .reservedScale => .raise .invalidOpcode
  | .error .reservedBits => .refuse .reservedBits
  | .error .truncated => .raise .invalidOpcode

/-- The instruction at the ip; its displacement word is fetched only if it has one (R134). A fault of that fetch comes before
a reserved encoding in the first word: the order is the model's (log 76). -/
def State.fetch (s : State) : Eff Instr :=
  (s.fetchWord s.ip).bind fun w =>
    if hasDisplacement w then (s.fetchWord (s.ip + 4#32)).bind fun d => decoded (decode [w, d])
    else decoded (decode [w])

/-- Is an enabled breakpoint register at this address (R562)? -/
def State.breakpointAt (s : State) (a : Word) : Bool :=
  (s.bp0.enabled && s.bp0.addr == a) || (s.bp1.enabled && s.bp1.addr == a)

/-- The trace events an instruction begins with: its own, and a breakpoint's (R560, R562). -/
def State.begin (s : State) : State :=
  { s with traced := if s.breakpointAt s.ip then evInstruction ||| evBreakpoint else evInstruction }

/-- The end of a step that began in `s`: trace events are reported, and free values are fresh from here on. -/
def State.finish (s : State) (r : Res) : Res :=
  match r with
  | .next t =>
    match traceFinish (traceModes s.tctl) s.ip t with
    | .next u => .next { u with serial := u.serial + 1 }
    | r => r
  | r => r

/-- The state after some events of the environment were read. -/
def State.withEnv (env : List EnvEvent) (s : State) : State := { s with env := env }

/-- An interrupt request that arrives between two instructions is a step of its own (R530; log 7). A fault met meanwhile is
taken without a change of the processor state, of an idle processor too: the model's choice (log 85). -/
def State.takeInterrupt (v : BitVec 8) (s : State) : Res :=
  match s.commit (s.interruptArrives v) with
  | .next t => .next { t with traced := 0, serial := t.serial + 1 }
  | r => r

/-- A byte that another bus agent writes between two instructions, as a step of its own (D4; log 61). -/
def State.externalWrite (a : Word) (b : Byte) (s : State) : State := { s.writeByte a b with serial := s.serial + 1 }

/-- An idle processor finds no process at the dispatch port (R54, R575, R6; log 60). -/
def State.idles (s : State) : State := { s with serial := s.serial + 1 }

/-- One step of an idle processor: it executes nothing, and an interrupt ends that (R54, R575; log 60). -/
def State.idleStep (s : State) : Res :=
  match s.env with
  | [] => .next s.idles
  | .quiet :: rest => .next (s.withEnv rest).idles
  | .interrupt v :: rest => (s.withEnv rest).takeInterrupt v
  | .extWrite a b :: rest => .next ((s.withEnv rest).externalWrite a b)

/-- `s` with some bytes in memory from an address up, the two words of an instruction there being freshly loaded code. -/
def State.loadBytes (s : State) (a : Word) : List Byte → State
  | [] => s
  | b :: bs =>
    ({ s with mem := s.mem.write a.toNat b, stale := keyDrop (a.toNat / 4) s.stale } : State).loadBytes (a + 1#32) bs

end Sys2Proof.Machine
end

