-- ==== Sys2Proof/Machine/Step.lean ====
section
/-! DEFINITION. One step of the machine. -/

namespace Sys2Proof.Machine

/-- Fetch the instruction at the ip and run it (R27, R500, R560). -/
def runInstruction (s : State) : Res :=
  match s.fetch with
  | .ok i => s.finish (exec i s.begin)
  | .raise e => s.finish (takeFault e s.ip s.ip s.begin)
  | .refuse r => .refused r

/-- One step of a processor that executes: an event of the environment if one is due, otherwise an instruction (R500,
R530). -/
def stepExecuting (s : State) : Res :=
  match s.env with
  | [] => runInstruction s
  | .quiet :: rest => runInstruction (s.withEnv rest)
  | .interrupt v :: rest => (s.withEnv rest).takeInterrupt v
  | .extWrite a b :: rest => .next ((s.withEnv rest).externalWrite a b)

/-- One step of the machine, unless it has left the modelled scope (R545, D3) or is stopped (R575). -/
def step (s : State) : Host.Outcome State Fault Refusal :=
  if s.restarted then .fault (.restart s.segTable s.prcb)
  else
    match s.proc with
    | .stopped => .fault .stopped
    | .idle => s.idleStep
    | .executing | .interrupted | .idleInterrupted => stepExecuting s

/-- `s` with the instruction whose bits are `w` stored at the ip, little-endian, 8 bytes of it (R81). -/
def State.withFetchWord (s : State) (nbits w : Nat) : State := s.loadBytes s.ip (tableBytes nbits w)

end Sys2Proof.Machine
end

