-- ==== Sys2Proof/Safety.lean ====
section
/-!
DEFINITION. What a good state is, what a safe run is, and the words the claims are written in: what an instruction
leaves unchanged, and what it writes.
-/

namespace Sys2Proof.Machine

/-- The invariant every step keeps: memory is in its canonical form, the ip is on a word boundary (R27), the chip holds
at most four register sets (R22), and no reserved bit of TC is set (R42). -/
structure State.Inv (s : State) : Prop where
  /-- memory is canonical -/
  mem : s.mem.wf = true
  /-- instructions begin on word boundaries (R27) -/
  ip : s.ip &&& 3#32 = 0#32
  /-- four register sets, one of them the current one (R22) -/
  cached : s.cached.length ≤ cacheDepth
  /-- no reserved bit of TC is set, but for bits 0 and 16, which `modtc` can write (R42, R364) -/
  tctl : s.tctl &&& 0xFF00FF00#32 = 0#32

/-- The machine goes on for `n` steps. -/
def State.runsFor (s : State) : Nat → Prop
  | 0 => True
  | n + 1 => ∃ t, step s = .next t ∧ t.runsFor n

/-- A step that ends in neither a fault nor a refusal. -/
def State.Safe (s : State) : Prop := ∃ t, step s = .next t

/-! ### The words of the claims -/

/-- An instruction completes, in a state with property `P`. -/
def Gives (x : Res) (P : State → Prop) : Prop := ∃ t, x = .next t ∧ P t

/-- The word a register holds (R20), r2 included. -/
def State.contents (s : State) (r : Reg) : Word :=
  if isGlobal r then s.globals[bankIndex r] else s.localReg (bankIndex r)

/-- Every byte outside the `n` from `a` up (modulo 2^32) reads in `t` as it does in `s`. -/
def State.SameOutside (a : Word) (n : Nat) (s t : State) : Prop :=
  ∀ x : Word, n ≤ (x - a).toNat → t.readByte x = s.readByte x

/-- RAM holds the bytes `bs` from `a` up. -/
def State.Holds (t : State) (a : Word) (bs : List Byte) : Prop :=
  ∀ (i : Nat) (b : Byte), bs[i]? = some b → kindAt t.memMap (a + BitVec.ofNat 32 i).toNat = .ram →
    t.readByte (a + BitVec.ofNat 32 i) = b

/-- Everything but the ip, the registers, AC, memory, the stale words and the trace events of the running instruction is
unchanged. -/
structure SameSpecial (s t : State) : Prop where
  cached : t.cached = s.cached
  pctl : t.pctl = s.pctl
  tctl : t.tctl = s.tctl
  proc : t.proc = s.proc
  procControls : t.procControls = s.procControls
  segTable : t.segTable = s.segTable
  prcb : t.prcb = s.prcb
  dispatchPort : t.dispatchPort = s.dispatchPort
  intTable : t.intTable = s.intTable
  intStack : t.intStack = s.intStack
  region3 : t.region3 = s.region3
  sysProcTable : t.sysProcTable = s.sysProcTable
  faultTable : t.faultTable = s.faultTable
  icr : t.icr = s.icr
  bp0 : t.bp0 = s.bp0
  bp1 : t.bp1 = s.bp1
  memMap : t.memMap = s.memMap
  restarted : t.restarted = s.restarted
  env : t.env = s.env
  serial : t.serial = s.serial

/-- No register, no floating-point register and no special register is written. -/
structure SameRegisters (s t : State) : Prop where
  regs : ∀ q : Reg, t.contents q = s.contents q
  fps : t.fps = s.fps
  special : SameSpecial s t

/-- The registers from `r` up take the values `ws`; no other register changes. -/
structure WritesGroup (s : State) (r : Reg) (ws : List Word) (t : State) : Prop where
  written : ∀ (k : Nat) (w : Word), ws[k]? = some w → t.contents (r + BitVec.ofNat 5 k) = w
  others : ∀ q : Reg, (∀ k < ws.length, q ≠ r + BitVec.ofNat 5 k) → t.contents q = s.contents q

/-- An instruction of `len` bytes writes the registers from `r` up with `ws` and AC with `ac`, and nothing else: no other
register, no byte of memory, no floating-point or special register. -/
structure Writes (s : State) (r : Reg) (ws : List Word) (ac : ArithControls) (len : Word) (t : State) : Prop where
  group : WritesGroup s r ws t
  ac : t.ac = ac
  ip : t.ip = s.ip + len
  fps : t.fps = s.fps
  bytes : ∀ x, t.readByte x = s.readByte x
  stale : t.stale = s.stale
  traced : t.traced = s.traced
  special : SameSpecial s t

/-- An instruction of `len` bytes stores `bs` from `a` up, writes AC with `ac`, and nothing else. -/
structure Stores (s : State) (a : Word) (bs : List Byte) (ac : ArithControls) (len : Word) (t : State) : Prop where
  stored : t.Holds a bs
  outside : State.SameOutside a bs.length s t
  kept : ∀ x, kindAt s.memMap x.toNat ≠ .ram → t.readByte x = s.readByte x
  ac : t.ac = ac
  ip : t.ip = s.ip + len
  traced : t.traced = s.traced
  rest : SameRegisters s t

/-- An instruction moves the ip to `target`, with the trace events `events`, writes AC with `ac`, and nothing else. -/
structure Goes (s : State) (target : Word) (events : BitVec 8) (ac : ArithControls) (t : State) : Prop where
  ac : t.ac = ac
  ip : t.ip = target
  bytes : ∀ x, t.readByte x = s.readByte x
  stale : t.stale = s.stale
  traced : t.traced = s.traced ||| events
  rest : SameRegisters s t

/-- An integer result that fits is written; one that does not is written and sets AC.of, or, unmasked, raises
Arithmetic.IntegerOverflow after the write, saved at the next instruction (R210, R504, R512). -/
def IntegerOutcome (s : State) (r : Reg) (w : Word) (fits : Prop) (x : Res) : Prop :=
  (fits → Gives x (Writes s r [w] s.ac 4#32)) ∧
  (¬fits → s.ac.om = true → Gives x (Writes s r [w] { s.ac with oflow := true } 4#32)) ∧
  (¬fits → s.ac.om = false → ∃ t, Writes s r [w] s.ac 4#32 t ∧ x = takeFault .integerOverflow s.ip t.ip t)

/-! ### Floating-point operands and results -/

/-- The value of a floating-point source that is no reserved code (R139, R427). -/
def sourceOperand (s : State) (f : FpFormat) : FSrc → FpOperand
  | .reg r => decodeWords f (s.readRegs r f.words)
  | .fp k => decodeExtended s.fps[k.toFin]
  | .zero => { neg := false, cls := .zero, num := .zero false }
  | .one => decodeExtended extOne
  | .reserved _ => { neg := false, cls := .reserved, num := .zero false }

/-- A source an arithmetic instruction accepts without a fault: an aligned group, a floating-point register that holds no
reserved encoding, a literal; a denormalized number only in the normalizing mode (R202, R427, R428). -/
def SourceReady (s : State) (f : FpFormat) (x : FSrc) : Prop :=
  (match x with
    | .reg r => r.toNat % (if f.words = 3 then 4 else f.words) = 0
    | .fp _ => (sourceOperand s f x).cls ≠ .reserved
    | .zero => True
    | .one => True
    | .reserved _ => False) ∧
  ((sourceOperand s f x).cls = .denormal → s.ac.nm = true)

/-- A destination a floating-point instruction can write (R140, R202). -/
def TargetReady (f : FpFormat) : FDst → Prop
  | .reg r => r.toNat % (if f.words = 3 then 4 else f.words) = 0
  | .fp _ => True
  | .reserved _ => False

/-- The format a result takes: extended in a floating-point register, the instruction's own in general registers (R427). -/
def targetFormat (f : FpFormat) : FDst → FpFormat
  | .reg _ => f
  | .fp _ => .extended
  | .reserved _ => f

/-- An instruction writes `bits` to its floating-point destination and AC with `ac`, and nothing else. -/
structure FpWrites (s : State) (f : FpFormat) (d : FDst) (bits : Ext) (ac : ArithControls) (t : State) : Prop where
  regs : match d with
    | .reg r => WritesGroup s r (wordsOfExt f bits) t ∧ t.fps = s.fps
    | .fp k => (∀ q, t.contents q = s.contents q) ∧ t.fps = s.fps.set k.toFin bits
    | .reserved _ => False
  ac : t.ac = ac
  ip : t.ip = s.ip + 4#32
  bytes : ∀ x, t.readByte x = s.readByte x
  special : SameSpecial s t

/-- Every floating-point exception is masked. -/
def AllMasked (a : ArithControls) : Prop :=
  a.fom = true ∧ a.fum = true ∧ a.fim = true ∧ a.fzm = true ∧ a.fxm = true

/-- AC after masked exceptions: each sets its sticky flag; underflow only with a result that is inexact too (R428). -/
def withFlags (a : ArithControls) (x : FpExceptions) : ArithControls :=
  { a with
    fif := a.fif || x.invalid
    fzf := a.fzf || x.zeroDivide
    fof := a.fof || x.overflow
    fuf := a.fuf || (x.tiny && x.inexact)
    fxf := a.fxf || x.inexact }

/-- `b` is `a` with some floating-point flags set. -/
def OnlyFlagsSet (a b : ArithControls) : Prop :=
  ∃ flags : BitVec 5, b.toWord = a.toWord ||| (flags.setWidth 32 <<< 16)

/-- What a result and the exceptions it comes with are delivered as, in a format (R427, R428). -/
def deliveredBits (f : FpFormat) (rc : BitVec 2) (r : FpResult) : Ext := encodeNum f (roundNum f rc r.num).num

/-- The exceptions of a delivered result. -/
def deliveredExceptions (f : FpFormat) (rc : BitVec 2) (r : FpResult) : FpExceptions :=
  { invalid := r.exc.invalid, zeroDivide := r.exc.zeroDivide, overflow := (roundNum f rc r.num).exc.overflow
    tiny := (roundNum f rc r.num).exc.tiny, inexact := (roundNum f rc r.num).exc.inexact || r.exc.inexact }

/-- No exception of `exc` is unmasked. -/
def Masked (s : State) (exc : FpExceptions) : Prop :=
  (exc.invalid = true → s.ac.fim = true) ∧ (exc.zeroDivide = true → s.ac.fzm = true) ∧
    (exc.overflow = true → s.ac.fom = true) ∧ (exc.tiny = true → s.ac.fum = true) ∧
    (exc.inexact = true → s.ac.fxm = true)

/-- R428: an instruction that signals `exc` ends in the fault of the first exception that is not masked, in the order
invalid, zero-divide, overflow, underflow, inexact, saved at the instruction, with nothing written but the flags of the masked
exceptions before it. -/
def Traps (s : State) (exc : FpExceptions) (x : Res) : Prop :=
  let raised := fun (e : Exn) (ac : ArithControls) => x = takeFault e s.ip s.ip { s with ac := ac }
  (exc.invalid = true → s.ac.fim = false → raised .fpInvalid s.ac) ∧
  ((exc.invalid = true → s.ac.fim = true) → exc.zeroDivide = true → s.ac.fzm = false →
    raised .fpZeroDivide (withFlags s.ac { invalid := exc.invalid })) ∧
  ((exc.invalid = true → s.ac.fim = true) → (exc.zeroDivide = true → s.ac.fzm = true) → exc.overflow = true →
    s.ac.fom = false → raised .fpOverflow (withFlags s.ac { invalid := exc.invalid, zeroDivide := exc.zeroDivide })) ∧
  ((exc.invalid = true → s.ac.fim = true) → (exc.zeroDivide = true → s.ac.fzm = true) →
    (exc.overflow = true → s.ac.fom = true) → exc.tiny = true → s.ac.fum = false →
    raised .fpUnderflow
      (withFlags s.ac { invalid := exc.invalid, zeroDivide := exc.zeroDivide, overflow := exc.overflow })) ∧
  ((exc.invalid = true → s.ac.fim = true) → (exc.zeroDivide = true → s.ac.fzm = true) →
    (exc.overflow = true → s.ac.fom = true) → (exc.tiny = true → s.ac.fum = true) → exc.inexact = true →
    s.ac.fxm = false → raised .fpInexact { withFlags s.ac exc with fxf := s.ac.fxf })

/-- R428 as a whole: with the exceptions it signals masked, an instruction delivers `bits` with their flags, and otherwise it
traps. -/
def Delivers (s : State) (f : FpFormat) (d : FDst) (bits : Ext) (exc : FpExceptions) (x : Res) : Prop :=
  (Masked s exc → Gives x (FpWrites s f d bits (withFlags s.ac exc))) ∧ Traps s exc x

/-- A result before rounding is delivered, rounded once to the destination's format. -/
def DeliversRounded (s : State) (f : FpFormat) (d : FDst) (r : FpResult) (x : Res) : Prop :=
  Delivers s f d (deliveredBits (targetFormat f d) s.ac.rc r) (deliveredExceptions (targetFormat f d) s.ac.rc r) x

end Sys2Proof.Machine
end

