-- ==== Sys2Proof/Certificates/Slice0/Obligations.lean ====
section
/-!
DEFINITION. The claims about the machine, one definition each, and the tables some of them range over. Most of the
operations rest on rules that the spec marks "[from general knowledge, not in source]": those claims are derived from
their sections (log 65).
-/

namespace Sys2Proof.Machine

/-! ### Tables of instructions of one shape -/

/-- The REG instructions of one result that depends on two sources only, never faults and writes no flag
(R211, R214, R217, R226, R227, R229 to R231, R241 to R250, R252 to R254). -/
def plainRows : List ((Src → Src → Dst → Instr) × (Word → Word → Word)) :=
  [(.addo, fun a b => b + a), (.subo, fun a b => b - a), (.mulo, fun a b => b * a),
   (.shlo, fun n v => if n.toNat < 32 then v <<< n.toNat else 0#32),
   (.shro, fun n v => if n.toNat < 32 then v >>> n.toNat else 0#32),
   (.shri, fun n v => v.sshiftRight (min n.toNat 31)),
   (.shrdi, fun n v => BitVec.ofInt 32 (v.toInt.tdiv (2 ^ min n.toNat 32))),
   (.rotate, fun n v => v.rotateLeft (n.toNat % 32)),
   (.and, fun a b => b &&& a), (.andnot, fun a b => b &&& ~~~a), (.notand, fun a b => ~~~b &&& a),
   (.nand, fun a b => ~~~(b &&& a)), (.or, fun a b => b ||| a), (.nor, fun a b => ~~~(b ||| a)),
   (.ornot, fun a b => b ||| ~~~a), (.notor, fun a b => ~~~b ||| a), (.xor, fun a b => b ^^^ a),
   (.xnor, fun a b => ~~~(b ^^^ a)),
   (.setbit, fun p v => v ||| BitVec.twoPow 32 (p.toNat % 32)),
   (.clrbit, fun p v => v &&& ~~~BitVec.twoPow 32 (p.toNat % 32)),
   (.notbit, fun p v => v ^^^ BitVec.twoPow 32 (p.toNat % 32))]

/-- The integer instructions of two sources that may overflow, with their exact results (R212, R215, R218). -/
def integerRows : List ((Src → Src → Dst → Instr) × (Int → Int → Int)) :=
  [(.addi, fun a b => b + a), (.subi, fun a b => b - a), (.muli, fun a b => b * a)]

/-- The instructions with a divisor and one result word (R220, R221, R223 to R225). -/
def divideRows : List (Src → Src → Dst → Instr) := [.divo, .divi, .remo, .remi, .modi]

/-- BRANCH IF (R291 to R298): opcode, instruction, mask. -/
def branchIfRows : List (Nat × (BitVec 22 → Instr) × BitVec 3) :=
  [(0x10, .bno, 0b000), (0x11, .bg, 0b001), (0x12, .be, 0b010), (0x13, .bge, 0b011), (0x14, .bl, 0b100),
   (0x15, .bne, 0b101), (0x16, .ble, 0b110), (0x17, .bo, 0b111)]

/-- TEST IF (R321 to R328). -/
def testIfRows : List (Nat × (Reg → Instr) × BitVec 3) :=
  [(0x20, .testno, 0b000), (0x21, .testg, 0b001), (0x22, .teste, 0b010), (0x23, .testge, 0b011),
   (0x24, .testl, 0b100), (0x25, .testne, 0b101), (0x26, .testle, 0b110), (0x27, .testo, 0b111)]

/-- FAULT IF (R331 to R338). -/
def faultIfRows : List (Nat × Instr × BitVec 3) :=
  [(0x18, .faultno, 0b000), (0x19, .faultg, 0b001), (0x1A, .faulte, 0b010), (0x1B, .faultge, 0b011),
   (0x1C, .faultl, 0b100), (0x1D, .faultne, 0b101), (0x1E, .faultle, 0b110), (0x1F, .faulto, 0b111)]

/-- COMPARE AND BRANCH of ordinals (R301 to R306): opcode, instruction, and when the branch is taken. -/
def ordinalBranchRows : List (Nat × (Src → Reg → BitVec 11 → Instr) × (Nat → Nat → Bool)) :=
  [(0x31, .cmpobg, fun a b => decide (b < a)), (0x32, .cmpobe, fun a b => decide (a = b)),
   (0x33, .cmpobge, fun a b => decide (b ≤ a)), (0x34, .cmpobl, fun a b => decide (a < b)),
   (0x35, .cmpobne, fun a b => decide (a ≠ b)), (0x36, .cmpoble, fun a b => decide (a ≤ b))]

/-- COMPARE AND BRANCH of integers (R307 to R314). -/
def integerBranchRows : List (Nat × (Src → Reg → BitVec 11 → Instr) × (Int → Int → Bool)) :=
  [(0x38, .cmpibno, fun _ _ => false), (0x39, .cmpibg, fun a b => decide (b < a)),
   (0x3A, .cmpibe, fun a b => decide (a = b)), (0x3B, .cmpibge, fun a b => decide (b ≤ a)),
   (0x3C, .cmpibl, fun a b => decide (a < b)), (0x3D, .cmpibne, fun a b => decide (a ≠ b)),
   (0x3E, .cmpible, fun a b => decide (a ≤ b)), (0x3F, .cmpibo, fun _ _ => true)]

/-- Is condition `m` true of a condition code, as the table of R290 lists it? -/
def conditionTrue (m cc : BitVec 3) : Bool :=
  match m.toNat with
  | 0 => cc == 0b000
  | 1 => cc.getLsbD 0
  | 2 => cc.getLsbD 1
  | 3 => cc.getLsbD 1 || cc.getLsbD 0
  | 4 => cc.getLsbD 2
  | 5 => cc.getLsbD 2 || cc.getLsbD 0
  | 6 => cc.getLsbD 2 || cc.getLsbD 1
  | _ => cc != 0b000

/-- The opcode `op` of a CTRL word selects `f` with the word's displacement (R136). -/
def DecodesCtrl (op : Nat) (f : BitVec 22 → Instr) : Prop :=
  ∀ (w : Word) (rest : List Word), (w.extractLsb' 24 8).toNat = op → w.extractLsb' 0 2 = 0#2 →
    decode (w :: rest) = .ok (f (w.extractLsb' 2 22), rest)

/-- The opcode `op` of a COBR word selects `f` with the word's two operands and displacement (R135, R142). -/
def DecodesCobr (op : Nat) (f : Src → Reg → BitVec 11 → Instr) : Prop :=
  ∀ (w : Word) (rest : List Word), (w.extractLsb' 24 8).toNat = op → w.extractLsb' 0 2 = 0#2 →
    decode (w :: rest) =
      .ok (f (if w.getLsbD 13 then .lit (w.extractLsb' 19 5) else .reg (w.extractLsb' 19 5)) (w.extractLsb' 14 5)
        (w.extractLsb' 2 11), rest)

/-- R150, R151, R165: a reserved MEMB mode, a reserved scale where an index is used, or an opcode that no instruction
has. -/
def ReservedWord (w : Word) : Prop :=
  ((∃ i, opcodeOf ((encode i).headD 0) = opcodeOf w) ∧ 0x80 ≤ opcodeOf w ∧ w.getLsbD 12 = true ∧
    w.extractLsb' 5 2 = 0#2 ∧
    (w.extractLsb' 10 4 = 0b0110#4 ∨
      (w.extractLsb' 10 4 ∈ [0b0111#4, 0b1110#4, 0b1111#4] ∧ 0b101#3 ≤ w.extractLsb' 7 3))) ∨
  ∀ i, opcodeOf ((encode i).headD 0) ≠ opcodeOf w ∨
    (0x40 ≤ opcodeOf w ∧ opcodeOf w < 0x80 ∧ regOpcodeOf ((encode i).headD 0) ≠ regOpcodeOf w)

/-- Every byte of the `n` from `a` up is RAM. -/
def State.ramAt (s : State) (a : Word) (n : Nat) : Prop :=
  ∀ i < n, kindAt s.memMap (a + BitVec.ofNat 32 i).toNat = .ram

/-- The `n` bytes from `a` up and the `m` from `b` up have none in common (addresses modulo 2^32, D2). -/
def Apart (a : Word) (n : Nat) (b : Word) (m : Nat) : Prop := n ≤ (b - a).toNat ∧ m ≤ (a - b).toNat

/-! ### Frames -/

/-- The register sets on the chip that entering a new frame writes to memory: the oldest, if no set is free (R22). -/
def State.flushed (s : State) : List CachedFrame := s.cached.drop (cacheDepth - 1)

/-- Each register set that has to leave the chip is in the RAM of its frame (R22, R340). -/
def Flushed (s t : State) : Prop :=
  ∀ f ∈ s.flushed, s.ramAt f.frame 64 →
    ∀ i : Fin 16, t.readWord (f.frame + BitVec.ofNat 32 (4 * i.val)) = f.regs[i].val

/-- The machine is in a new frame (R340): the caller's register set is on the chip with its return address in r2, the
frame pointer, r0 and sp are the new frame's; AC and every other global register are as before. -/
structure Entered (s : State) (returnIp base r0 : Word) (t : State) : Prop where
  caller : t.cached.head? = some { frame := s.frameBase, regs := s.locals.set 2 (.word returnIp) }
  older : t.cached.tail = s.cached.take (cacheDepth - 1)
  fp : t.contents 31#5 = base
  pfp : t.contents 0#5 = r0
  sp : t.contents 1#5 = base + 64#32
  globals : ∀ q : Reg, isGlobal q = true → q ≠ 31#5 → t.contents q = s.contents q
  fps : t.fps = s.fps
  ac : t.ac = s.ac

/-- The previous frame's register set is current again (R344): its registers, the frame pointer, the ip from its r2; every
other global register and memory are as before. -/
structure Resumed (s : State) (regs : Fin 16 → Word) (cached : List CachedFrame) (t : State) : Prop where
  locals : ∀ i : Fin 16, t.localReg i = regs i
  fp : t.contents 31#5 = s.contents 0#5 &&& 0xFFFFFFC0#32
  ip : t.ip = regs 2 &&& 0xFFFFFFFC#32
  cached : t.cached = cached
  globals : ∀ q : Reg, isGlobal q = true → q ≠ 31#5 → t.contents q = s.contents q
  fps : t.fps = s.fps
  bytes : ∀ x, t.readByte x = s.readByte x
  tctl : t.tctl = s.tctl

/-- The previous frame, its registers and the sets the chip keeps: from the chip if it holds them, otherwise from
memory, which must be readable RAM (R344, R345). -/
def PreviousFrame (s : State) (regs : Fin 16 → Word) (cached : List CachedFrame) : Prop :=
  (∃ set, findFrame (s.contents 0#5 &&& 0xFFFFFFC0#32) s.cached = some (set, cached) ∧ ∀ i, regs i = set[i].val) ∨
  (findFrame (s.contents 0#5 &&& 0xFFFFFFC0#32) s.cached = none ∧ s.ramAt (s.contents 0#5 &&& 0xFFFFFFC0#32) 64 ∧
    cached = s.cached ∧ ∀ i, regs i = s.readWord ((s.contents 0#5 &&& 0xFFFFFFC0#32) + BitVec.ofNat 32 (4 * i.val)))

/-! ### Interrupts and starting again -/

/-- An interrupt with vector `v` has been posted (R527): its bit and its priority's bit are set in the interrupt table, and
no other byte of memory has changed. -/
structure Posted (s : State) (v : BitVec 8) (t : State) : Prop where
  priority : t.readWord s.intTable = (s.readWord s.intTable ||| BitVec.twoPow 32 (v.toNat / 8))
  vector : t.readWord (s.intTable + 4#32 + BitVec.ofNat 32 (4 * (v.toNat / 32))) =
    (s.readWord (s.intTable + 4#32 + BitVec.ofNat 32 (4 * (v.toNat / 32))) ||| BitVec.twoPow 32 (v.toNat % 32))
  bytes : ∀ x : Word, 4 ≤ (x - s.intTable).toNat →
    4 ≤ (x - (s.intTable + 4#32 + BitVec.ofNat 32 (4 * (v.toNat / 32)))).toNat →
      kindAt s.memMap x.toNat ≠ .device → t.readByte x = s.readByte x

/-- The processor serves an interrupt with vector `v` at once (R530). -/
def Serves (s : State) (v : BitVec 8) : Prop := (s.pctl.extractLsb' 16 5).toNat < v.toNat / 8 ∨ v.toNat / 8 = 31

/-- The processor begins at `start` with the tables of a PRCB, as after reset: on the interrupt stack, interrupted, priority
31, supervisor, tracing off, no register set but the current one (R581, R583). -/
structure Begins (s : State) (segs base start : Word) (t : State) : Prop where
  ip : t.ip = start &&& 0xFFFFFFFC#32
  segTable : t.segTable = segs
  prcb : t.prcb = base
  procControls : t.procControls = s.readWord (base + 4#32)
  dispatchPort : t.dispatchPort = s.readWord (base + 16#32)
  intTable : t.intTable = s.readWord (base + 20#32)
  intStack : t.intStack = s.readWord (base + 24#32)
  region3 : t.region3 = s.readWord (base + 32#32)
  sysProcTable : t.sysProcTable = s.readWord (base + 36#32)
  faultTable : t.faultTable = s.readWord (base + 40#32)
  fp : t.contents 31#5 = s.readWord (base + 24#32)
  pctl : t.pctl = 0x001F2002#32
  proc : t.proc = .idleInterrupted
  cached : t.cached = []
  stale : t.stale = []
  mem : t.mem = s.mem

/-- No prereturn trace is due (R344). -/
def NoPrereturn (s : State) : Prop :=
  (s.contents 0#5).getLsbD 3 = false ∨ s.te = false ∨ s.tctl.getLsbD 5 = false

end Sys2Proof.Machine

open Sys2Proof Sys2Proof.Machine

/-! ### Encoding -/

/-- Decoding what the encoder writes gives the instruction back, with every operand at every value its field admits, and
leaves the words after it (R130 to R152, R160). -/
def Obligations.EncodeThenDecode : Prop :=
  ∀ (i : Instr) (rest : List Word), i.encodable = true → decode (encode i ++ rest) = .ok (i, rest)

/-- R134: an instruction is one word, but for a MEM instruction in the MEMB modes 0101 and 1100 to 1111, which is two. -/
def Obligations.InstructionLength : Prop :=
  ∀ (w : Word) (more : List Word) (i : Instr) (rest : List Word), decode (w :: more) = .ok (i, rest) →
    if 0x80 ≤ (w.extractLsb' 24 8).toNat ∧ w.getLsbD 12 = true ∧
        (w.extractLsb' 10 4 = 0b0101#4 ∨ 0b1100#4 ≤ w.extractLsb' 10 4)
    then ∃ d, more = d :: rest else more = rest

/-- Words written out from the spec's encodings decode to their instructions (95_test_vectors.md, Appendix C). -/
def Obligations.ChosenWordsDecode : Prop :=
  decode [0x59A4C092#32] = .ok (.addi (.reg 18#5) (.reg 19#5) (.reg 20#5), []) ∧
  decode [0x08000020#32] = .ok (.b 8#22, []) ∧
  decode [0x31844010#32] = .ok (.cmpobg (.reg 16#5) 17#5 4#11, []) ∧
  decode [0x90845000#32] = .ok (.ld 16#5 (.base 17#5), []) ∧
  decode [0x86003000#32, 0x1234#32] = .ok (.callx (.disp 0x1234#32), []) ∧
  decode [0x66000000#32] = .ok (.calls (.reg 0#5), []) ∧
  decode [0x64840290#32] = .ok (.modac (.reg 16#5) (.reg 16#5) (.reg 16#5), []) ∧
  decode [0x78840810#32] = .error .unknownOpcode

/-- "The use of a reserved encoding causes an invalid opcode fault to be signaled": such a word at the ip raises
Operation.InvalidOpcode, saved at the word itself (R150, R151, R165, R502); a word of an instruction with a bit set where the
formats show "0 0" is refused (R166, D7, log 27). That an unknown opcode is looked at before such a bit, and that the
displacement word is fetched first, are the model's choices (log 76). -/
def Obligations.ReservedEncodings : Prop :=
  (∀ (s : State) (w : Word), ReservedWord w → s.fetchWord s.ip = .ok w →
    (hasDisplacement w = true → ∃ d, s.fetchWord (s.ip + 4#32) = .ok d) →
      runInstruction s = s.finish (takeFault .invalidOpcode s.ip s.ip s.begin)) ∧
  ∀ (w : Word) (rest : List Word), (∃ i, opcodeOf ((encode i).headD 0) = opcodeOf w ∧
      (0x40 ≤ opcodeOf w → opcodeOf w < 0x80 → regOpcodeOf ((encode i).headD 0) = regOpcodeOf w)) →
    (opcodeOf w < 0x40 → w.extractLsb' 0 2 ≠ 0#2) →
    (0x40 ≤ opcodeOf w → w.extractLsb' 5 2 ≠ 0#2) →
    (0x80 ≤ opcodeOf w → w.getLsbD 12 = true) →
      decode (w :: rest) = .error .reservedBits

/-! ### The step -/

/-- The step runs the instruction the decoder reads at the ip: `exec` on the state with the instruction's own trace
events noted, then the trace check and the renewal of free values; after an instruction that leaves tracing off, or has no
traced event, nothing else happens (R27, R500, R560). A stopped processor executes nothing (R575), an idle one goes on doing
nothing but take interrupts (R54, R575, log 60), and after a restart message the model ends (R545, D3). -/
def Obligations.StepRunsDecodedInstruction : Prop :=
  (∀ (s : State) (w d : Word) (i : Instr) (rest : List Word), s.restarted = false → s.proc ≠ .stopped → s.proc ≠ .idle →
    s.fetchWord s.ip = .ok w → (hasDisplacement w = true → s.fetchWord (s.ip + 4#32) = .ok d) →
    decode [w, d] = .ok (i, rest) →
      (s.env = [] → step s = s.finish (exec i s.begin)) ∧
      (∀ more, s.env = .quiet :: more → step s = (s.withEnv more).finish (exec i (s.withEnv more).begin)) ∧
      (∀ t, s.env = [] → exec i s.begin = .next t → (t.te = false ∨ t.traced &&& traceModes s.tctl = 0#8) →
        step s = .next { t with traced := 0#8, serial := t.serial + 1 })) ∧
  ∀ s : State, (s.restarted = true → step s = .fault (.restart s.segTable s.prcb)) ∧
    (s.restarted = false → s.proc = .stopped → step s = .fault .stopped) ∧
    (s.restarted = false → s.proc = .idle →
      (s.env = [] → step s = .next { s with serial := s.serial + 1 }) ∧
      (∀ more, s.env = .quiet :: more → step s = .next { s with env := more, serial := s.serial + 1 }) ∧
      ∀ v more, s.env = .interrupt v :: more → step s = (s.withEnv more).takeInterrupt v)

/-- R530, R527: an interrupt request is served at once when its priority is above the processor's or 31, otherwise it is
posted: its bit and its priority's bit are set in the interrupt table, every other byte of which, and every other byte of
memory, is unchanged, and the program goes on. The request is a step of its own (log 7), which an idle processor takes too
(R54). -/
def Obligations.InterruptRequestServedOrPosted : Prop :=
  ∀ (s : State) (v : BitVec 8) (more : List EnvEvent), s.restarted = false → s.proc ≠ .stopped →
    s.env = .interrupt v :: more → 8 ≤ v.toNat → s.readable s.intTable 36 = true → s.ramAt s.intTable 36 →
      (Serves s v → ∀ u, (s.withEnv more).interruptEntry v s.ip = .ok u →
        step s = .next { u with traced := 0#8, serial := u.serial + 1 }) ∧
      (¬ Serves s v → Gives (step s) fun t => Posted s v t ∧
        t.ip = s.ip ∧ t.pctl = s.pctl ∧ t.ac = s.ac ∧ t.proc = s.proc ∧ (∀ q, t.contents q = s.contents q) ∧ t.env = more)

/-! ### Invariants of the whole machine -/

/-- The state after reset has the invariant (R75, R583). -/
def Obligations.ResetHasInvariant : Prop := State.reset.Inv

/-- Every step keeps the invariant: memory stays canonical, the ip stays on a word boundary (R27, R84), the chip never
holds more than four register sets (R22), and no reserved bit of TC is ever set but bits 0 and 16: R42 reserves those two
as well, and `modtc` can write them, which is the model's choice between the two masks U33 allows (R364, PRESUMED, log 52). -/
def Obligations.StepKeepsInvariant : Prop :=
  ∀ s t : State, s.Inv → step s = .next t → t.Inv

/-- In user mode no instruction changes the process controls by its own effect. PC changes only where a fault is taken, from
a state whose PC is the old one, but for the trace-fault-pending flag, and at the address of the instruction, or of the next
one; in a call through the system procedure table, which enters supervisor mode and changes no bit but te and em; and where
an interrupt is entered after a return from an interrupt handler, or by an IAC message, or a message starts the processor
again (R36, R343, R344, R363, R512, R533, R541). -/
def Obligations.UserModeKeepsProcessControls : Prop :=
  ∀ (i : Instr) (s t : State), s.supervisor = false → exec i s = .next t →
    let message := ∃ x y, i = .synmov x y ∨ i = .synmovl x y ∨ i = .synmovq x y
    t.pctl = s.pctl ∨
      (∃ (e : Exn) (f a : Word) (u : State), takeFault e f a u = .next t ∧
        (u.pctl = s.pctl ∨ u.pctl = s.pctl ||| BitVec.twoPow 32 10) ∧ (f = s.ip ∨ (i = .ret ∧ f = u.ip)) ∧
        (a = f ∨ a = u.ip)) ∨
      ((∃ x, i = .calls x) ∧ t.supervisor = true ∧ ∀ k, 2 ≤ k → t.pctl.getLsbD k = s.pctl.getLsbD k) ∨
      ((i = .ret ∨ message) ∧ t.supervisor = true ∧ t.te = false ∧ t.pctl.extractLsb' 13 2 = 1#2 ∧
        ∀ k, k ∉ [0, 1, 8, 13, 14, 16, 17, 18, 19, 20] → t.pctl.getLsbD k = s.pctl.getLsbD k) ∨
      (message ∧ t.pctl = 0x001F2002#32)

/-- R580 to R583: with a self test that passes and an initial memory image whose checksum is right, the first instruction is
the one the image names, on the interrupt stack, in the interrupted state at priority 31 in supervisor mode with tracing off,
with the pointers of the PRCB; with a self test that fails or a wrong checksum the processor stops (U30). -/
def Obligations.BootFollowsMemoryImage : Prop :=
  ∀ (mem : Memory) (map : List MemRange),
    let s : State := { State.reset with mem := mem, memMap := map }
    let w := fun k : Nat => s.readWord (BitVec.ofNat 32 (4 * k))
    (boot false mem map).proc = .stopped ∧
    ((∀ x, s.readable x 4 = true) →
      (checksumFrom 0 0 (s.readWords 0#32 8) ≠ 0 → (boot true mem map).proc = .stopped) ∧
      (checksumFrom 0 0 (s.readWords 0#32 8) = 0 →
        Begins s (w 0) (w 1) (w 3) (boot true mem map) ∧ (boot true mem map).restarted = false ∧
          (boot true mem map).bp0.enabled = false ∧ (boot true mem map).bp1.enabled = false))

/-! ### Memory and data movement -/

/-- R81, R82: a word stored in RAM reads back, its low byte at its address, and the words of a group lie at rising
addresses. R120, D5, U29: a word of code not stored to since the instruction cache was last purged is fetched as it is; one
that was is fetched as it is or as it was before one of the stores (log 20), until a purge message. D4: a byte another bus
agent writes is a step of its own that changes this byte alone and purges nothing (log 61). -/
def Obligations.StoredWordsReadBack : Prop :=
  (∀ (s : State) (a : Word) (ws : List Word), ws.length ≤ 4 → s.ramAt a (4 * ws.length) →
    (s.writeWords a ws).readWords a ws.length = ws ∧
    (∀ k < ws.length, (s.writeWords a ws).readByte (a + BitVec.ofNat 32 (4 * k)) = (ws.getD k 0#32).extractLsb' 0 8) ∧
    ∀ x : Word, 4 * ws.length ≤ (x - a).toNat → (s.writeWords a ws).readByte x = s.readByte x) ∧
  (∀ (s : State) (a w : Word), s.mem.wf = true → s.ramAt a 4 → a &&& 3#32 = 0#32 →
    (s.staleAt a = [] → s.fetchWord a = .ok (s.readWord a)) ∧
    (∃ x, (s.writeWord a w).fetchWord a = .ok x ∧ (x = w ∨ x = s.readWord a ∨ ∃ o ∈ s.staleAt a, x = o.word.val)) ∧
    ∀ msg : IacMessage, msg.type = 0x89 → ∃ t, (s.writeWord a w).receiveIac msg = .ok t ∧
      t.mem = (s.writeWord a w).mem ∧ t.fetchWord a = .ok w) ∧
  ∀ (s : State) (a : Word) (b : Byte) (more : List EnvEvent), s.restarted = false → s.proc ≠ .stopped →
    s.env = .extWrite a b :: more → Gives (step s) fun t =>
      (kindAt s.memMap a.toNat = .ram → t.readByte a = b) ∧
      (∀ x : Word, (x ≠ a ∨ kindAt s.memMap a.toNat ≠ .ram) → kindAt s.memMap x.toNat ≠ .device →
        t.readByte x = s.readByte x) ∧
      (∀ x, ∀ o ∈ s.staleAt x, o ∈ t.staleAt x) ∧ t.env = more ∧ t.ip = s.ip ∧ t.ac = s.ac ∧
      SameRegisters s { t with env := s.env, serial := s.serial }

/-- R181 to R188, R82: each load writes its register with the word, byte or short at the effective address, extended with
zeros or with the sign, or the registers from the named one up with the words at rising addresses, the one after a triple
unwritten; where a byte of it is a bad access, Machine.BadAccess is taken with nothing written (R503). -/
def Obligations.LoadsWriteTheirRegisters : Prop :=
  ∀ (s : State) (r : Reg) (m : MemOp),
    let a := effectiveAddress s m
    let short : BitVec 16 := s.readByte (a + 1#32) ++ s.readByte a
    let row := fun (i : Instr) (n : Nat) (ws : List Word) =>
      (s.readable a n = true → Gives (exec i s) (Writes s r ws s.ac (memLength m))) ∧
      (s.readable a n = false → exec i s = takeFault .badAccess s.ip s.ip s)
    let words := fun n : Nat => (List.range n).map fun k => s.readWord (a + BitVec.ofNat 32 (4 * k))
    row (.ld r m) 4 [s.readByte (a + 3#32) ++ s.readByte (a + 2#32) ++ s.readByte (a + 1#32) ++ s.readByte a] ∧
    row (.ldob r m) 1 [(s.readByte a).setWidth 32] ∧ row (.ldib r m) 1 [(s.readByte a).signExtend 32] ∧
    row (.ldos r m) 2 [short.setWidth 32] ∧ row (.ldis r m) 2 [short.signExtend 32] ∧
    (r.toNat % 2 = 0 → row (.ldl r m) 8 (words 2)) ∧
    (r.toNat % 4 = 0 → row (.ldt r m) 12 (words 3) ∧ row (.ldq r m) 16 (words 4))

/-- R189 to R196: a store writes the low bytes of its register, or the words of its register group, from the effective
address up, and no other byte of memory and no register; `stib` and `stis` then report a value that does not fit: AC.of is
set when it is masked, and otherwise Arithmetic.IntegerOverflow is raised (R210, R504). -/
def Obligations.StoresWriteOnlyTheirBytes : Prop :=
  ∀ (s : State) (r : Reg) (m : MemOp),
    let a := effectiveAddress s m
    let v := s.readReg r
    let words := fun n => ((List.range n).map fun k => s.readReg (r + BitVec.ofNat 5 k)).flatMap bytesOfWord
    let row := fun (i : Instr) (bs : List Byte) => Gives (exec i s) (Stores s a bs s.ac (memLength m))
    let integer := fun (i : Instr) (bs : List Byte) (n : Nat) =>
      let fits := -(2 ^ n : Int) ≤ v.toInt ∧ v.toInt < 2 ^ n
      (fits → row i bs) ∧
      (¬fits → s.ac.om = true → Gives (exec i s) (Stores s a bs { s.ac with oflow := true } (memLength m))) ∧
      (¬fits → s.ac.om = false → ∃ t, Stores s a bs s.ac (memLength m) t ∧
        exec i s = takeFault .integerOverflow s.ip t.ip t)
    row (.st r m) (bytesOfWord v) ∧ row (.stob r m) [v.extractLsb' 0 8] ∧
    row (.stos r m) [v.extractLsb' 0 8, v.extractLsb' 8 8] ∧
    (r.toNat % 2 = 0 → row (.stl r m) (words 2)) ∧
    (r.toNat % 4 = 0 → row (.stt r m) (words 3) ∧ row (.stq r m) (words 4)) ∧
    integer (.stib r m) [v.extractLsb' 0 8] 7 ∧ integer (.stis r m) [v.extractLsb' 0 8, v.extractLsb' 8 8] 15

/-- R197 to R201: `lda` writes the effective address, and a move writes a copy of its source, all of whose words are read
before any is written; a literal source is extended with zeros. -/
def Obligations.MovesCopyTheirSource : Prop :=
  (∀ (s : State) (r : Reg) (m : MemOp),
    Gives (exec (.lda r m) s) (Writes s r [effectiveAddress s m] s.ac (memLength m))) ∧
  (∀ (s : State) (x : Src) (r : Reg), Gives (exec (.mov x (.reg r)) s) (Writes s r [srcVal s x] s.ac 4#32)) ∧
  ∀ (s : State) (r : Reg),
    let row := fun (i : Src → Dst → Instr) (align n : Nat) => r.toNat % align = 0 →
      (∀ q : Reg, q.toNat % align = 0 →
        Gives (exec (i (.reg q) (.reg r)) s)
          (Writes s r ((List.range n).map fun k => s.readReg (q + BitVec.ofNat 5 k)) s.ac 4#32)) ∧
      (∀ v : BitVec 5, Gives (exec (i (.lit v) (.reg r)) s)
        (Writes s r (v.setWidth 32 :: List.replicate (n - 1) 0#32) s.ac 4#32))
    row .movl 2 2 ∧ row .movt 4 3 ∧ row .movq 4 4

/-- R149 to R152: the effective address of each addressing mode; that every sum is taken modulo 2^32 is R150's and D2's, which
the model reads so (log 22, DEDUCED). -/
def Obligations.EffectiveAddresses : Prop :=
  ∀ (s : State) (b x : Reg) (d : Word) (off : BitVec 12),
    let scale := fun sc : Scale => match sc with | .x1 => 1 | .x2 => 2 | .x4 => 4 | .x8 => 8 | .x16 => 16
    (effectiveAddress s (.offset off)).toNat = off.toNat ∧
    (effectiveAddress s (.baseOffset b off)).toNat = ((s.readReg b).toNat + off.toNat) % 2 ^ 32 ∧
    effectiveAddress s (.base b) = s.readReg b ∧
    (effectiveAddress s (.ipDisp d)).toNat = (s.ip.toNat + d.toNat + 8) % 2 ^ 32 ∧
    effectiveAddress s (.disp d) = d ∧
    (effectiveAddress s (.baseDisp b d)).toNat = ((s.readReg b).toNat + d.toNat) % 2 ^ 32 ∧
    ∀ sc,
      (effectiveAddress s (.baseIndex b x sc)).toNat =
        ((s.readReg b).toNat + (s.readReg x).toNat * scale sc) % 2 ^ 32 ∧
      (effectiveAddress s (.indexDisp x sc d)).toNat = ((s.readReg x).toNat * scale sc + d.toNat) % 2 ^ 32 ∧
      (effectiveAddress s (.baseIndexDisp b x sc d)).toNat =
        ((s.readReg b).toNat + (s.readReg x).toNat * scale sc + d.toNat) % 2 ^ 32

/-- R20: 32 general registers of 32 bits, the numbers 0 to 15 the local ones, 16 to 31 the global ones; what is written to
one is what it then holds, whatever it is, and no other changes. An operand reads what its register holds; that it does so for
all 32 bits of g15 (R24, D10, log 26), and does not for r2 of the current frame, which may read as anything (R23, D9,
log 23), are the model's choices. -/
def Obligations.RegistersAreSeparate : Prop :=
  ∀ (s : State) (r q : Reg) (v : Word),
    (s.contents r = if h : r.toNat < 16 then (s.locals[r.toNat]).val else s.globals[r.toNat - 16]'(by omega)) ∧
    (s.setReg r v).contents r = v ∧ (q ≠ r → (s.setReg r v).contents q = s.contents q) ∧
    (r ≠ 2#5 → s.readReg r = s.contents r) ∧ (q ≠ r → (s.setReg r v).readReg q = s.readReg q)

/-- R202, D14, U9: a register group that does not start where its size divides is refused (the model's choice of what U9
allows, log 29), and before any other fault of the operands, whatever they are (the model's choice, log 80). -/
def Obligations.MisalignedGroupsAreRefused : Prop :=
  ∀ (s : State) (r q : Reg) (m : MemOp) (x y : Src) (n : BitVec 5) (u v : FSrc) (d : FDst) (g : Dst),
    (r.toNat % 2 ≠ 0 → ∀ i ∈ [Instr.ldl r m, .stl r m, .movl (.reg r) g, .movl (.lit n) (.reg r), .movl (.reg q) (.reg r), .emul x y (.reg r),
      .ediv x (.reg r) g, .ediv x y (.reg r), .ldtime (.reg r), .cvtilr (.reg r) d, .cvtril u (.reg r),
      .cvtzril u (.reg r), .addrl (.reg r) u d, .addrl u (.reg r) d, .addrl u v (.reg r), .subrl (.reg r) u d,
      .subrl u (.reg r) d, .subrl u v (.reg r), .mulrl (.reg r) u d, .mulrl u (.reg r) d, .mulrl u v (.reg r),
      .divrl (.reg r) u d, .divrl u (.reg r) d, .divrl u v (.reg r), .remrl (.reg r) u d, .remrl u (.reg r) d,
      .remrl u v (.reg r), .logrl (.reg r) u d, .logrl u (.reg r) d, .logrl u v (.reg r), .logeprl (.reg r) u d,
      .logeprl u (.reg r) d, .logeprl u v (.reg r), .atanrl (.reg r) u d, .atanrl u (.reg r) d, .atanrl u v (.reg r),
      .scalerl x (.reg r) d, .scalerl x u (.reg r), .sqrtrl (.reg r) d, .sqrtrl u (.reg r), .roundrl (.reg r) d,
      .roundrl u (.reg r), .logbnrl (.reg r) d, .logbnrl u (.reg r), .exprl (.reg r) d, .exprl u (.reg r),
      .sinrl (.reg r) d, .sinrl u (.reg r), .cosrl (.reg r) d, .cosrl u (.reg r), .tanrl (.reg r) d, .tanrl u (.reg r),
      .movrl (.reg r) d, .movrl u (.reg r), .cmprl (.reg r) u, .cmprl u (.reg r), .cmporl (.reg r) u,
      .cmporl u (.reg r), .classrl (.reg r)],
      exec i s = .refused .registerAlignment) ∧
    (r.toNat % 4 ≠ 0 → ∀ i ∈ [Instr.ldt r m, .stt r m, .ldq r m, .stq r m, .movt (.reg r) g, .movt (.lit n) (.reg r),
      .movq (.reg r) g, .movq (.lit n) (.reg r), .movt (.reg q) (.reg r), .movq (.reg q) (.reg r), .movre (.reg r) d,
      .movre u (.reg r), .cpysre (.reg r) u d, .cpysre u (.reg r) d, .cpysre u v (.reg r), .cpyrsre (.reg r) u d,
      .cpyrsre u (.reg r) d, .cpyrsre u v (.reg r)],
      exec i s = .refused .registerAlignment)

/-! ### Arithmetic, logical and bit instructions -/

/-- R211, R214, R217, R226, R227, R229 to R231, R241 to R250, R252 to R254: the instructions of two sources and one result
write that result and nothing else; no flag, no fault. -/
def Obligations.PlainOperationsWriteOneRegister : Prop :=
  ∀ row ∈ plainRows, ∀ (s : State) (x y : Src) (r : Reg),
    Gives (exec (row.1 x y (.reg r)) s) (Writes s r [row.2 (srcVal s x) (srcVal s y)] s.ac 4#32)

/-- R213, R216: `addc` and `subc` take the carry from bit 1 of the condition code, and leave 0, the carry out and the
signed overflow in it. -/
def Obligations.CarryArithmetic : Prop :=
  ∀ (s : State) (x y : Src) (r : Reg),
    let a := srcVal s x
    let b := srcVal s y
    let c := (s.ac.cc.getLsbD 1).toNat
    let row := fun (i : Instr) (a' : Nat) (v : Word → Bool) =>
      let n := b.toNat + a' + c
      let w := BitVec.ofNat 32 n
      Gives (exec i s) (Writes s r [w]
        { s.ac with cc := 0#1 ++ BitVec.ofBool (decide (2 ^ 32 ≤ n)) ++ BitVec.ofBool (v w) } 4#32)
    row (.addc x y (.reg r)) a.toNat (fun w => a.msb == b.msb && w.msb != a.msb) ∧
    row (.subc x y (.reg r)) (2 ^ 32 - 1 - a.toNat) (fun w => b.msb != a.msb && w.msb != b.msb)

/-- R212, R215, R218, R228: the low word of the exact result is written; one that does not fit sets AC.of, or, with AC.om
clear, raises Arithmetic.IntegerOverflow after the write. `shli` multiplies by a power of two; what it writes when that does
not fit is some value (U11). -/
def Obligations.IntegerOperationsReportOverflow : Prop :=
  ∀ (s : State) (x y : Src) (r : Reg),
    let fits := fun n : Int => -(2 ^ 31 : Int) ≤ n ∧ n < 2 ^ 31
    (∀ row ∈ integerRows,
      let n := row.2 (srcVal s x).toInt (srcVal s y).toInt
      IntegerOutcome s r (BitVec.ofInt 32 n) (fits n) (exec (row.1 x y (.reg r)) s)) ∧
    let n := (srcVal s y).toInt * 2 ^ min (srcVal s x).toNat 32
    ∃ v : Word, (fits n → v.toInt = n) ∧ IntegerOutcome s r v (fits n) (exec (.shli x y (.reg r)) s)

/-- R220, R221, R223 to R225: with a divisor that is not 0, the quotient truncates toward zero, the remainder has the sign
of the dividend, the modulus that of the divisor, and only -2^31 by -1 overflows, in `divi` and `remi`. -/
def Obligations.DivisionsOfNonzeroDivisors : Prop :=
  ∀ (s : State) (x y : Src) (r : Reg),
    let a := srcVal s x
    let b := srcVal s y
    a ≠ 0#32 →
      Gives (exec (.divo x y (.reg r)) s) (Writes s r [BitVec.ofNat 32 (b.toNat / a.toNat)] s.ac 4#32) ∧
      Gives (exec (.remo x y (.reg r)) s) (Writes s r [BitVec.ofNat 32 (b.toNat % a.toNat)] s.ac 4#32) ∧
      IntegerOutcome s r (BitVec.ofInt 32 (b.toInt.tdiv a.toInt)) (¬ (b.toInt = -2 ^ 31 ∧ a.toInt = -1))
        (exec (.divi x y (.reg r)) s) ∧
      IntegerOutcome s r (BitVec.ofInt 32 (b.toInt - b.toInt.tdiv a.toInt * a.toInt))
        (¬ (b.toInt = -2 ^ 31 ∧ a.toInt = -1)) (exec (.remi x y (.reg r)) s) ∧
      ∃ v : Word, Gives (exec (.modi x y (.reg r)) s) (Writes s r [v] s.ac 4#32) ∧
        (∃ q : Int, v.toInt = b.toInt - q * a.toInt) ∧ v.toInt.natAbs < a.toInt.natAbs ∧ (v.toInt ≠ 0 → v.msb = a.msb)

/-- R219, R222: `emul` writes the 64-bit product; `ediv` writes the remainder and then the quotient, which is any value
when it needs more than 32 bits (U10). A zero divisor, here and in the other divisions, raises Arithmetic.ZeroDivide with
nothing written, saved at the instruction (R210, R504). That the other divisions do so with a literal destination as well,
where U2 also allows an invalid opcode, is the model's choice (log 80, DESIGN CHOICE). -/
def Obligations.ExtendedMultiplyAndDivide : Prop :=
  ∀ (s : State) (x y : Src) (r : Reg),
    (r.toNat % 2 = 0 →
      (Gives (exec (.emul x y (.reg r)) s)
        (Writes s r [BitVec.ofNat 32 ((srcVal s x).toNat * (srcVal s y).toNat),
          BitVec.ofNat 32 ((srcVal s x).toNat * (srcVal s y).toNat / 2 ^ 32)] s.ac 4#32)) ∧
      let divides := fun (i : Instr) (n : Nat) =>
        let d := (srcVal s x).toNat
        if d = 0 then exec i s = takeFault .zeroDivide s.ip s.ip s
        else ∃ q : Word, (n / d < 2 ^ 32 → q.toNat = n / d) ∧
          Gives (exec i s) (Writes s r [BitVec.ofNat 32 (n % d), q] s.ac 4#32)
      (∀ q : Reg, q.toNat % 2 = 0 →
        divides (.ediv x (.reg q) (.reg r)) ((s.readReg q).toNat + 2 ^ 32 * (s.readReg (q + 1#5)).toNat)) ∧
      ∀ v : BitVec 5, divides (.ediv x (.lit v) (.reg r)) v.toNat) ∧
    (srcVal s x = 0#32 → ∀ f ∈ divideRows, ∀ d : Dst, exec (f x y d) s = takeFault .zeroDivide s.ip s.ip s)

/-- R251, R255, R259 to R261: `not`, `alterbit`, `extract`, `modify` write their result; an extracted field above bit 31 is
some value (U12); `scanbyte` finds two equal bytes in the same place. R256 to R258: `chkbit` tests a bit; `scanbit` finds the
highest bit that is 1, `spanbit` the highest that is 0; where there is none the result is all ones and the condition code
000. -/
def Obligations.BitOperations : Prop :=
  ∀ (s : State) (x y : Src) (r : Reg),
    let a := srcVal s x
    let b := srcVal s y
    let d := s.readReg r
    let one := fun (i : Instr) (v : Word) => Gives (exec i s) (Writes s r [v] s.ac 4#32)
    let code := fun (i : Instr) (c : BitVec 3) => Gives (exec i s) (Writes s r [] { s.ac with cc := c } 4#32)
    one (.not x (.reg r)) (BitVec.allOnes 32 ^^^ a) ∧
    (∃ v : Word, (∀ k < 32, v.getLsbD k = if k = a.toNat % 32 then s.ac.cc.getLsbD 1 else b.getLsbD k) ∧
      one (.alterbit x y (.reg r)) v) ∧
    (∃ v : Word, (a.toNat < 32 → ∀ k < 32, v.getLsbD k = (decide (k < b.toNat) && d.getLsbD (a.toNat + k))) ∧
      one (.extract x y (.reg r)) v) ∧
    (∃ v : Word, (∀ k < 32, v.getLsbD k = if a.getLsbD k then b.getLsbD k else d.getLsbD k) ∧
      one (.modify x y (.reg r)) v) ∧
    ((∃ k < 4, a.extractLsb' (8 * k) 8 = b.extractLsb' (8 * k) 8) → code (.scanbyte x y) 0b010) ∧
    ((∀ k < 4, a.extractLsb' (8 * k) 8 ≠ b.extractLsb' (8 * k) 8) → code (.scanbyte x y) 0b000) ∧
    code (.chkbit x y) (if b.getLsbD (a.toNat % 32) then 0b010 else 0b000) ∧
    let search := fun (i : Instr) (bit : Bool) =>
      (∀ k < 32, a.getLsbD k = bit → (∀ j, k < j → j < 32 → a.getLsbD j ≠ bit) →
        Gives (exec i s) (Writes s r [BitVec.ofNat 32 k] { s.ac with cc := 0b010 } 4#32)) ∧
      ((∀ k < 32, a.getLsbD k ≠ bit) →
        Gives (exec i s) (Writes s r [0xFFFFFFFF#32] { s.ac with cc := 0b000 } 4#32))
    search (.scanbit x (.reg r)) true ∧ search (.spanbit x (.reg r)) false

/-! ### Compare, branch, test, conditional fault -/

/-- R271 to R278: a compare leaves 100, 010 or 001 in the condition code as the first operand is below, equal to or above
the second, as ordinals or as integers; the conditional compares only look when bit 2 is 0; the compares that increment or
decrement also write the second operand plus or minus 1, wrapping without a fault. -/
def Obligations.ComparesSetTheConditionCode : Prop :=
  ∀ (s : State) (x y : Src) (r : Reg),
    let a := srcVal s x
    let b := srcVal s y
    let order := fun (lt gt : Bool) => if lt then 0b100#3 else if gt then 0b001#3 else 0b010#3
    let ord := order (decide (a.toNat < b.toNat)) (decide (b.toNat < a.toNat))
    let int := order (decide (a.toInt < b.toInt)) (decide (b.toInt < a.toInt))
    let only := fun (i : Instr) (c : BitVec 3) => Gives (exec i s) (Writes s r [] { s.ac with cc := c } 4#32)
    let both := fun (i : Instr) (v : Word) (c : BitVec 3) =>
      Gives (exec i s) (Writes s r [v] { s.ac with cc := c } 4#32)
    let range := fun le : Bool => if s.ac.cc.getLsbD 2 then s.ac.cc else if le then 0b010#3 else 0b001#3
    only (.cmpo x y) ord ∧ only (.cmpi x y) int ∧
    only (.concmpo x y) (range (decide (a.toNat ≤ b.toNat))) ∧ only (.concmpi x y) (range (decide (a.toInt ≤ b.toInt))) ∧
    both (.cmpinco x y (.reg r)) (b + 1#32) ord ∧ both (.cmpinci x y (.reg r)) (b + 1#32) int ∧
    both (.cmpdeco x y (.reg r)) (b - 1#32) ord ∧ both (.cmpdeci x y (.reg r)) (b - 1#32) int

/-- R280 to R284: `b` and `bal` go to the ip plus four times the signed displacement, `bx` and `balx` to the effective
address with its low two bits cleared; `bal` leaves the address of the next instruction in g14, `balx` in its register, the
target having been computed first. -/
def Obligations.BranchesAndLinks : Prop :=
  ∀ (s : State) (d : BitVec 22) (m : MemOp) (r : Reg),
    DecodesCtrl 0x08 .b ∧
    Gives (exec (.b d) s) (Goes s (s.ip + BitVec.ofInt 32 (4 * d.toInt)) evBranch s.ac) ∧
    Gives (exec (.bx m) s) (Goes s (effectiveAddress s m &&& 0xFFFFFFFC#32) evBranch s.ac) ∧
    let links := fun (i : Instr) (q : Reg) (len target : Word) => Gives (exec i s) fun t =>
      WritesGroup s q [s.ip + len] t ∧ t.ip = target ∧ t.ac = s.ac ∧ t.fps = s.fps ∧
      (∀ a, t.readByte a = s.readByte a) ∧ t.traced = s.traced ||| evCall ∧ SameSpecial s t
    links (.bal d) 30#5 4#32 (s.ip + BitVec.ofInt 32 (4 * d.toInt)) ∧
    links (.balx r m) r (memLength m) (effectiveAddress s m &&& 0xFFFFFFFC#32)

/-- R291 to R298: each BRANCH IF goes to its target when its condition holds of the condition code, otherwise to the next
instruction, and changes nothing else. -/
def Obligations.ConditionalBranches : Prop :=
  ∀ row ∈ branchIfRows, DecodesCtrl row.1 row.2.1 ∧ ∀ (s : State) (d : BitVec 22),
    (conditionTrue row.2.2 s.ac.cc = true →
      Gives (exec (row.2.1 d) s) (Goes s (s.ip + BitVec.ofInt 32 (4 * d.toInt)) evBranch s.ac)) ∧
    (conditionTrue row.2.2 s.ac.cc = false → Gives (exec (row.2.1 d) s) (Goes s (s.ip + 4#32) 0#8 s.ac))

/-- R301 to R314: each COMPARE AND BRANCH writes the condition code of its comparison, taken or not, and is taken exactly
when the relation it names holds of its operands; `cmpibno` never, `cmpibo` always. R315, R316: `bbc` and `bbs` branch when the
selected bit, its number taken modulo 32, is 0 or 1; the condition code becomes 000 or 010, which of the two is not determined
(U13, log 37). -/
def Obligations.ComparesAndBranches : Prop :=
  let claim := fun (op : Nat) (i : Src → Reg → BitVec 11 → Instr) (lt gt taken : Word → Word → Bool) =>
    DecodesCobr op i ∧ ∀ (s : State) (x : Src) (y : Reg) (d : BitVec 11),
      let a := srcVal s x
      let b := s.readReg y
      let c := if lt a b then 0b100#3 else if gt a b then 0b001#3 else 0b010#3
      if taken a b then
        Gives (exec (i x y d) s) (Goes s (s.ip + BitVec.ofInt 32 (4 * d.toInt)) evBranch { s.ac with cc := c })
      else Gives (exec (i x y d) s) (Goes s (s.ip + 4#32) 0#8 { s.ac with cc := c })
  (∀ row ∈ ordinalBranchRows, claim row.1 row.2.1 (fun a b => decide (a.toNat < b.toNat))
    (fun a b => decide (b.toNat < a.toNat)) fun a b => row.2.2 a.toNat b.toNat) ∧
  (∀ row ∈ integerBranchRows, claim row.1 row.2.1 (fun a b => decide (a.toInt < b.toInt))
    (fun a b => decide (b.toInt < a.toInt)) fun a b => row.2.2 a.toInt b.toInt) ∧
  ∀ (s : State) (x : Src) (y : Reg) (d : BitVec 11),
    let bit := (s.readReg y).getLsbD ((srcVal s x).toNat % 32)
    let branches := fun (i : Instr) (taken : Bool) => ∃ c ∈ [0b000#3, 0b010#3],
      if taken then Gives (exec i s) (Goes s (s.ip + BitVec.ofInt 32 (4 * d.toInt)) evBranch { s.ac with cc := c })
      else Gives (exec i s) (Goes s (s.ip + 4#32) 0#8 { s.ac with cc := c })
    branches (.bbc x y d) (!bit) ∧ branches (.bbs x y d) bit

/-- R144: of a TEST IF word only the src1 field is used: it names the register that receives the result, and words that
differ in m1, src2 and displacement alone are the same instruction. -/
def Obligations.TestIfFields : Prop :=
  ∀ (w u : Word) (rest : List Word), 0x20 ≤ (w.extractLsb' 24 8).toNat → (w.extractLsb' 24 8).toNat ≤ 0x27 →
    (w &&& 0xFFF80003#32 = u &&& 0xFFF80003#32 → decode (w :: rest) = decode (u :: rest)) ∧
    (w.extractLsb' 0 2 = 0#2 → ∃ i : Instr, decode (w :: rest) = .ok (i, rest) ∧
      ∀ s : State, ∃ v : Word, Gives (exec i s) (WritesGroup s (w.extractLsb' 19 5) [v]))

/-- R321 to R328: each TEST IF writes 1 when its condition holds of the condition code and 0 otherwise. -/
def Obligations.ConditionTests : Prop :=
  ∀ row ∈ testIfRows,
    (∀ (w : Word) (rest : List Word), (w.extractLsb' 24 8).toNat = row.1 → w.extractLsb' 0 2 = 0#2 →
      decode (w :: rest) = .ok (row.2.1 (w.extractLsb' 19 5), rest)) ∧
    ∀ (s : State) (r : Reg), Gives (exec (row.2.1 r) s)
      (Writes s r [if conditionTrue row.2.2 s.ac.cc then 1#32 else 0#32] s.ac 4#32)

/-- R331 to R338, R505: each FAULT IF changes nothing but the ip when its condition does not hold; when it holds it raises
Constraint.Range, having written nothing, saved at the next instruction. -/
def Obligations.ConditionalFaults : Prop :=
  ∀ row ∈ faultIfRows,
    (∀ (w : Word) (rest : List Word), (w.extractLsb' 24 8).toNat = row.1 → w.extractLsb' 0 2 = 0#2 →
      decode (w :: rest) = .ok (row.2.1, rest)) ∧
    ∀ s : State,
      (conditionTrue row.2.2 s.ac.cc = false → Gives (exec row.2.1 s) (Goes s (s.ip + 4#32) 0#8 s.ac)) ∧
      (conditionTrue row.2.2 s.ac.cc = true → ∃ t, Goes s (s.ip + 4#32) 0#8 s.ac t ∧
        exec row.2.1 s = takeFault .constraintRange s.ip (s.ip + 4#32) t)

/-! ### Call and return -/

/-- R340 to R342: `call` and `callx` enter a new frame at the first 64-byte boundary at or above sp, with return status 000;
no control word, special register or byte of memory changes, but for the frame of the oldest register set, which is written
with that set, and only when no set is free (R22, log 25). -/
def Obligations.CallsEnterNewFrames : Prop :=
  ∀ (s : State) (d : BitVec 22) (m : MemOp),
    let claim := fun (i : Instr) (target len : Word) => Gives (exec i s) fun t =>
      Entered s (s.ip + len) ((s.contents 1#5 + 63#32) &&& 0xFFFFFFC0#32) (s.contents 31#5 &&& 0xFFFFFFC0#32) t ∧
      t.ip = target &&& 0xFFFFFFFC#32 ∧ t.traced = s.traced ||| evCall ∧ SameSpecial s { t with cached := s.cached } ∧
      (s.cached.length ≤ cacheDepth → Flushed s t) ∧
      (∀ x, (∀ f ∈ s.flushed, 64 ≤ (x - f.frame).toNat) → t.readByte x = s.readByte x)
    claim (.call d) (s.ip + BitVec.ofInt 32 (4 * d.toInt)) 4#32 ∧ claim (.callx m) (effectiveAddress s m) (memLength m)

/-- R343: `calls k` enters the procedure of entry `k` of the system procedure table: on the current stack, with status 000
and PC unchanged, for a local entry or in supervisor mode; for a supervisor entry in user mode on the supervisor stack, in
supervisor mode, with PC.te in the status and then taken from the table; above 259 it raises Protection.Length (log 67, DEDUCED).
That the entry kinds 01 and 11, whose behaviour in user mode R343 does not define, are refused there is the model's choice
(log 67). -/
def Obligations.SystemCalls : Prop :=
  ∀ (s : State) (x : Src),
    let k := srcVal s x
    let entryAt := s.sysProcTable + BitVec.ofNat 32 (48 + 4 * k.toNat)
    let entry := s.readWord entryAt
    let ssp := s.readWord (s.sysProcTable + 12#32)
    (259 < k.toNat → exec (.calls x) s = takeFault .length s.ip s.ip s) ∧
    (k.toNat ≤ 259 → s.readable entryAt 4 = true →
      (entry.extractLsb' 0 2 = 0b00#2 ∨ s.supervisor = true → Gives (exec (.calls x) s) fun t =>
        Entered s (s.ip + 4#32) ((s.contents 1#5 + 63#32) &&& 0xFFFFFFC0#32) (s.contents 31#5 &&& 0xFFFFFFC0#32) t ∧
        t.ip = entry &&& 0xFFFFFFFC#32 ∧ t.pctl = s.pctl) ∧
      (entry.extractLsb' 0 2 = 0b10#2 → s.supervisor = false → s.readable (s.sysProcTable + 12#32) 4 = true →
        Gives (exec (.calls x) s) fun t =>
          Entered s (s.ip + 4#32) (((ssp &&& 0xFFFFFFFC#32) + 63#32) &&& 0xFFFFFFC0#32)
            ((s.contents 31#5 &&& 0xFFFFFFC0#32) ||| (if s.te then 0b011#32 else 0b010#32)) t ∧
          t.ip = entry &&& 0xFFFFFFFC#32 ∧ t.supervisor = true ∧ t.te = ssp.getLsbD 0 ∧
          ∀ n, 2 ≤ n → t.pctl.getLsbD n = s.pctl.getLsbD n) ∧
      (entry.extractLsb' 0 2 = 0b01#2 ∨ entry.extractLsb' 0 2 = 0b11#2 → s.supervisor = false →
        exec (.calls x) s = .refused .reservedProcedureEntry))

/-- R344: a return makes the previous frame current, from the chip or from memory, and resumes at its r2. Status 000
changes no control word; 001 restores AC from the fault record, and PC too in supervisor mode; 010 and 011 leave
supervisor mode and set PC.te from the status's low bit; 111 restores as 001 does and, with no interrupt pending, goes on, the
processor no longer interrupted if the PC says so, and idle if no process was interrupted (R54, R575). The statuses 100 to
110 are refused (U15, log 68). The model's choices are that a frame the chip still holds is taken from the chip, with newer sets
dropped (log 25), that the reserved bits of AC are restored as saved (log 51), that the restored PC.st says whether status 111
ends the outermost handler (log 60, DEDUCED), and that status 001 leaves the processor state as it is whatever PC.st it restores
(log 86). -/
def Obligations.ReturnsResumeThePreviousFrame : Prop :=
  ∀ (s : State) (regs : Fin 16 → Word) (cached : List CachedFrame), s.mem.wf = true → NoPrereturn s →
    PreviousFrame s regs cached →
    let status := (s.contents 0#5).extractLsb' 0 3
    let fp := s.contents 31#5 &&& 0xFFFFFFC0#32
    let savedAc := s.readWord (fp - 12#32)
    let savedPc := s.readWord (fp - 16#32)
    (status = 0b000#3 → Gives (exec .ret s) fun t => Resumed s regs cached t ∧ t.ac = s.ac ∧ t.pctl = s.pctl ∧
      t.proc = s.proc ∧ t.traced = s.traced ||| evReturn) ∧
    (status = 0b001#3 → s.readable (fp - 16#32) 8 = true → Gives (exec .ret s) fun t => Resumed s regs cached t ∧
      t.ac.toWord = savedAc ∧ (t.pctl = if s.supervisor then savedPc else s.pctl) ∧ t.proc = s.proc) ∧
    (status = 0b010#3 ∨ status = 0b011#3 → Gives (exec .ret s) fun t => Resumed s regs cached t ∧ t.ac = s.ac ∧
      t.supervisor = false ∧ (t.te = if s.supervisor then status.getLsbD 0 else s.te) ∧ t.proc = s.proc) ∧
    (status = 0b111#3 → s.readable (fp - 16#32) 8 = true → s.readable s.intTable 4 = true → s.readWord s.intTable = 0#32 →
      Gives (exec .ret s) fun t => Resumed s regs cached t ∧ t.ac.toWord = savedAc ∧
        (t.pctl = if s.supervisor then savedPc else s.pctl) ∧
        (t.pctl.extractLsb' 13 2 = 1#2 → t.proc = s.proc) ∧
        (t.pctl.extractLsb' 13 2 ≠ 1#2 → (s.proc = .interrupted → t.proc = .executing) ∧
          (s.proc = .idleInterrupted → t.proc = .idle))) ∧
    (status = 0b100#3 ∨ status = 0b101#3 ∨ status = 0b110#3 → exec .ret s = .refused .reservedReturnStatus)

/-- R346, R22: `flushreg` writes every register set the chip holds for an earlier frame to that frame, and no other byte:
where frames do not overlap, word `i` of each frame in RAM is then its register `i`, and the chip holds no earlier set. -/
def Obligations.FlushWritesCachedFrames : Prop :=
  ∀ s : State, Gives (exec .flushreg s) fun t =>
    t.cached = [] ∧ t.ip = s.ip + 4#32 ∧ t.ac = s.ac ∧ t.pctl = s.pctl ∧ (∀ q, t.contents q = s.contents q) ∧
    (∀ x : Word, (∀ f ∈ s.cached, 64 ≤ (x - f.frame).toNat) → t.readByte x = s.readByte x) ∧
    (s.cached.Pairwise (fun f g => 64 ≤ (f.frame - g.frame).toNat ∧ 64 ≤ (g.frame - f.frame).toNat) →
      ∀ f ∈ s.cached, s.ramAt f.frame 64 → ∀ i : Fin 16,
        t.readWord (f.frame + BitVec.ofNat 32 (4 * i.val)) = f.regs[i].val)

/-! ### Control words, debug, atomic and synchronous instructions -/

/-- R361, R365, R366: `syncf` only moves on; `mark`, unless PC.te and the breakpoint mode are on, and `fmark`, unless PC.te
is on, do no more; otherwise each raises a trace fault that names the breakpoint event, and the instruction's other events
(log 54), saved at the next instruction, with the events' flags set in TC, PC.tfp set, and nothing else changed. -/
def Obligations.MarksAndSynchronize : Prop :=
  ∀ s : State,
    Gives (exec .syncf s) (Goes s (s.ip + 4#32) 0#8 s.ac) ∧
    let quiet := fun (i : Instr) => Gives (exec i s) (Goes s (s.ip + 4#32) 0#8 s.ac)
    let events := (s.traced &&& s.tctl.extractLsb' 0 8 &&& 0xFE#8) ||| 0x80#8
    let traps := fun (i : Instr) => exec i s = takeFault (.trace events) s.ip (s.ip + 4#32)
      { s with
        ip := s.ip + 4#32
        tctl := s.tctl ||| (events.setWidth 32 <<< 16)
        pctl := s.pctl ||| BitVec.twoPow 32 10 }
    (s.te = false ∨ s.tctl.getLsbD 7 = false → quiet .mark) ∧ (s.te = true → s.tctl.getLsbD 7 = true → traps .mark) ∧
    (s.te = false → quiet .fmark) ∧ (s.te = true → traps .fmark)

/-- R362, R364: `modac` and `modtc` return the old control word and replace, of its bits, those the mask selects, `modtc`
those of 0x00FF00FF only (log 52). That the reserved bits of AC take what is written to them and are read back is the model's
choice (R30, log 51). -/
def Obligations.ControlWordsAreModifiedUnderAMask : Prop :=
  ∀ (s : State) (x y : Src) (r : Reg),
    let merged := fun (mask old : Word) => (srcVal s y &&& mask) ||| (old &&& ~~~mask)
    (∃ ac : ArithControls, ac.toWord = merged (srcVal s x) s.ac.toWord ∧
      Gives (exec (.modac x y (.reg r)) s) (Writes s r [s.ac.toWord] ac 4#32)) ∧
    Gives (exec (.modtc x y (.reg r)) s) fun t => WritesGroup s r [s.tctl] t ∧
      t.tctl = merged (srcVal s x &&& 0x00FF00FF#32) s.tctl ∧ t.ip = s.ip + 4#32 ∧ t.ac = s.ac ∧ t.fps = s.fps ∧
      (∀ a, t.readByte a = s.readByte a) ∧ SameSpecial s { t with tctl := s.tctl }

/-- R363: `modpc` with a mask of 0 reads PC in any mode; with another mask it raises Type.Mismatch in user mode, and in
supervisor mode returns the old PC, replaces the masked bits, any of them (log 50), and, if the priority drops, looks at
pending interrupts. The processor state stays as it is unless PC.st changes. -/
def Obligations.ProcessControlsAreSupervisorOnly : Prop :=
  ∀ (s : State) (x y : Src) (r : Reg),
    let mask := srcVal s y
    let new := (s.readReg r &&& mask) ||| (s.pctl &&& ~~~mask)
    let written := fun t : State => WritesGroup s r [s.pctl] t ∧ t.pctl = new ∧ t.ip = s.ip + 4#32 ∧ t.ac = s.ac ∧
      t.fps = s.fps ∧ (∀ a, t.readByte a = s.readByte a) ∧
      (new.extractLsb' 13 2 = s.pctl.extractLsb' 13 2 → t.proc = s.proc) ∧
      SameSpecial s { t with pctl := s.pctl, proc := s.proc }
    (mask = 0#32 → Gives (exec (.modpc x y (.reg r)) s) (Writes s r [s.pctl] s.ac 4#32)) ∧
    (mask ≠ 0#32 → s.supervisor = false → exec (.modpc x y (.reg r)) s = takeFault .mismatch s.ip s.ip s) ∧
    (mask ≠ 0#32 → s.supervisor = true →
      ((s.pctl.extractLsb' 16 5).toNat ≤ (new.extractLsb' 16 5).toNat → Gives (exec (.modpc x y (.reg r)) s) written) ∧
      ((new.extractLsb' 16 5).toNat < (s.pctl.extractLsb' 16 5).toNat →
        (∃ u, written u ∧ exec (.modpc x y (.reg r)) s = thenCheckPending u) ∧
        (s.readable s.intTable 4 = true → s.readWord s.intTable = 0#32 → Gives (exec (.modpc x y (.reg r)) s) written)))

/-- R527, R533: a check of pending interrupts takes the highest pending priority when it is above PC.p or is 31: the bit of
one of its vectors (which one is not determined, log 8) is cleared, the priority's bit too if no other vector of it is
pending, no other byte and no register changes, and that vector's handler is entered; otherwise nothing happens. -/
def Obligations.PendingInterruptsAreServedByPriority : Prop :=
  ∀ (s : State) (p : Nat), p < 32 → 1 ≤ p → s.readable s.intTable 36 = true → s.ramAt s.intTable 36 →
    (s.readWord s.intTable).getLsbD p = true → (∀ q, p < q → (s.readWord s.intTable).getLsbD q = false) →
    let at' := s.intTable + 4#32 + BitVec.ofNat 32 (4 * (p / 4))
    let vectors := (List.range 8).filter fun i => (s.readWord at').getLsbD (8 * (p % 4) + i)
    (¬ ((s.pctl.extractLsb' 16 5).toNat < p ∨ p = 31) → s.checkPending = .ok s) ∧
    (((s.pctl.extractLsb' 16 5).toNat < p ∨ p = 31) → vectors ≠ [] → ∃ i ∈ vectors, ∃ u : State,
      s.checkPending = u.interruptEntry (BitVec.ofNat 8 (8 * p + i)) u.ip ∧
      u.readWord at' = s.readWord at' &&& ~~~BitVec.twoPow 32 (8 * (p % 4) + i) ∧
      (u.readWord s.intTable = if vectors = [i] then s.readWord s.intTable &&& ~~~BitVec.twoPow 32 p
        else s.readWord s.intTable) ∧
      (∀ x : Word, 4 ≤ (x - at').toNat → 4 ≤ (x - s.intTable).toNat → u.readByte x = s.readByte x) ∧
      u.ip = s.ip ∧ u.ac = s.ac ∧ SameRegisters s u)

/-- R367 to R369: `atadd` and `atmod` return the word at the address with its low two bits cleared, and store the sum or
the merge there; a bad access is taken with nothing written. -/
def Obligations.AtomicUpdates : Prop :=
  ∀ (s : State) (x y : Src) (r : Reg),
    let a := srcVal s x &&& 0xFFFFFFFC#32
    let old := s.readWord a
    let claim := fun (i : Instr) (new : Word) =>
      (s.readable a 4 = true → Gives (exec i s) fun t => WritesGroup s r [old] t ∧ t.Holds a (bytesOfWord new) ∧
        State.SameOutside a 4 s t ∧ t.ip = s.ip + 4#32 ∧ t.ac = s.ac ∧ t.fps = s.fps ∧ SameSpecial s t) ∧
      (s.readable a 4 = false → exec i s = takeFault .badAccess s.ip s.ip s)
    claim (.atadd x y (.reg r)) (old + srcVal s y) ∧
    claim (.atmod x y (.reg r)) ((s.readReg r &&& srcVal s y) ||| (old &&& ~~~srcVal s y))

/-- R370 to R374, R503: a synchronous move stores its words at the destination, its address aligned to their size, and
reports success in the condition code; a destination that is rejected is reported as 000 and no fault; a source that is
rejected is Machine.BadAccess. A synchronous load writes the word and reports 010, or reports 000 and leaves its register
undefined. The word at 0xFF000004 is the interrupt control register (R528). That a range that is not bad, ROM and devices
among them, always reports success is the model's choice (R91, log 79, DESIGN CHOICE), and so is that one-word accesses alone
reach the interrupt control register (log 18, PRESUMED). -/
def Obligations.SynchronousTransfers : Prop :=
  ∀ (s : State) (x y : Src) (r : Reg),
    let from' := srcVal s y
    let claim := fun (i : Instr) (n : Nat) (d : Word) =>
      let bs := ((List.range n).map fun k => s.readWord (from' + BitVec.ofNat 32 (4 * k))).flatMap bytesOfWord
      (s.readable from' (4 * n) = false → exec i s = takeFault .badAccess s.ip s.ip s) ∧
      (s.readable from' (4 * n) = true → d ≠ 0xFF000010#32 →
        (n = 1 → d = 0xFF000004#32 → Gives (exec i s) fun t => t.icr = s.readWord from' ∧ t.ip = s.ip + 4#32 ∧
          t.ac = { s.ac with cc := 0b010 } ∧ (∀ a, t.readByte a = s.readByte a) ∧
          SameRegisters s { t with icr := s.icr }) ∧
        (¬ (n = 1 ∧ d = 0xFF000004#32) →
          (s.readable d (4 * n) = true → Gives (exec i s) (Stores s d bs { s.ac with cc := 0b010 } 4#32)) ∧
          (s.readable d (4 * n) = false → Gives (exec i s) fun t => SameRegisters s t ∧ t.ip = s.ip + 4#32 ∧
            t.ac = { s.ac with cc := 0b000 } ∧ State.SameOutside d (4 * n) s t)))
    claim (.synmov x y) 1 (srcVal s x &&& 0xFFFFFFFC#32) ∧ claim (.synmovl x y) 2 (srcVal s x &&& 0xFFFFFFF8#32) ∧
    claim (.synmovq x y) 4 (srcVal s x &&& 0xFFFFFFF0#32) ∧
    let a := srcVal s x &&& 0xFFFFFFFC#32
    let gives := fun (v : Word) (c : BitVec 3) =>
      Gives (exec (.synld x (.reg r)) s) (Writes s r [v] { s.ac with cc := c } 4#32)
    (a = 0xFF000004#32 → gives s.icr 0b010) ∧
    (a ≠ 0xFF000004#32 → s.readable a 4 = true → gives (s.readWord a) 0b010) ∧
    (a ≠ 0xFF000004#32 → s.readable a 4 = false → ∃ v, gives v 0b000)

/-- R540, R541, R545, R562 (the type codes are the model's, log 55): four words moved to 0xFF000010 are a message to the
processor itself: it takes or posts an interrupt, tests its pending interrupts, stops, purges its instruction cache, sets one
of its breakpoint registers (which one is not determined, log 19), stores its system base, follows the initial memory image
again (log 83) or begins under a new PRCB (log 57), or restarts, after which the model ends (log 56); an interrupt message with
a vector below 8 is Structural.IAC; a type the spec leaves open is refused. -/
def Obligations.MessagesToTheProcessorItself : Prop :=
  ∀ (s : State) (x y : Src), srcVal s x &&& 0xFFFFFFF0#32 = 0xFF000010#32 → s.readable (srcVal s y) 16 = true →
    let w := fun k : Nat => s.readWord (srcVal s y + BitVec.ofNat 32 (4 * k))
    let type := ((w 0).extractLsb' 24 8).toNat
    let vector := (w 0).extractLsb' 16 8
    let sent : State := { s with ac := { s.ac with cc := 0b010 }, ip := s.ip + 4#32 }
    let run := exec (.synmovq x y) s
    let gives := fun P : State → Prop => Gives run fun t =>
      t.ac = { s.ac with cc := 0b010 } ∧ (∀ q, t.contents q = s.contents q) ∧ t.ip = s.ip + 4#32 ∧ t.pctl = s.pctl ∧ P t
    let bp := fun v : Word => ({ addr := v &&& 0xFFFFFFFC#32, enabled := !v.getLsbD 1 } : Breakpoint)
    (type = 0x91 → gives fun t => t.proc = .stopped) ∧
    (type = 0x89 → gives fun t => t.stale = [] ∧ t.proc = s.proc) ∧
    (type = 0x8F → gives fun t => t.proc = s.proc ∧
      ((t.bp0 = bp (w 1) ∧ t.bp1 = s.bp1) ∨ (t.bp0 = s.bp0 ∧ t.bp1 = bp (w 1)))) ∧
    (type = 0x80 → s.ramAt (w 1) 8 → gives fun t => t.readWord (w 1) = s.segTable ∧ t.readWord (w 1 + 4#32) = s.prcb ∧
      State.SameOutside (w 1) 8 s t) ∧
    (type = 0x81 → s.readable (w 2) 44 = true → gives fun t => t.segTable = w 1 ∧ t.prcb = w 2 ∧
      t.intTable = s.readWord (w 2 + 20#32) ∧ t.intStack = s.readWord (w 2 + 24#32) ∧
      t.sysProcTable = s.readWord (w 2 + 36#32) ∧ t.faultTable = s.readWord (w 2 + 40#32) ∧ t.proc = .idle ∧
      step t = .fault (.restart (w 1) (w 2))) ∧
    (type = 0x92 → s.readable 0#32 16 = true → s.readable (s.readWord 4#32) 44 = true →
      Gives run fun t => Begins s (s.readWord 0#32) (s.readWord 4#32) (s.readWord 12#32) t ∧ t.restarted = s.restarted) ∧
    (type = 0x93 → s.readable (w 1) 44 = true → Gives run fun t => Begins s (w 2) (w 1) (w 3) t ∧
      (t.restarted = true ↔ (s.readWord (w 1 + 4#32)).getLsbD 10 = true)) ∧
    (type = 0x40 → vector.toNat < 8 → run = takeFault .iac s.ip s.ip s) ∧
    (type = 0x40 → 8 ≤ vector.toNat →
      (Serves s vector → s.readable (s.intTable + 4#32 + BitVec.ofNat 32 (4 * vector.toNat)) 4 = true →
        ∃ u, sent.interruptEntry vector (s.ip + 4#32) = .ok u ∧ run = .next u) ∧
      (¬ Serves s vector → s.readable s.intTable 36 = true → s.ramAt s.intTable 36 → gives (Posted s vector))) ∧
    (type = 0x41 → (∀ u, sent.checkPending = .ok u → run = .next u) ∧
      (s.readable s.intTable 4 = true → s.readWord s.intTable = 0#32 → gives fun t =>
        (∀ a, t.readByte a = s.readByte a) ∧ SameRegisters s t)) ∧
    (type ∉ [0x40, 0x41, 0x80, 0x81, 0x89, 0x8F, 0x91, 0x92, 0x93] → run = .refused (.iacUnspecified type))

/-! ### Process management, string and decimal instructions -/

/-- R375, R390 to R400: outside virtual mode the process-management instructions and the translation queries have no
effect the spec gives: they are refused by name (U18). That `resumprcs` raises Type.Mismatch in user mode, before that refusal,
is the model's choice, inferred from R400 and R565 (log 66, DEDUCED; R390, R400 and U18 refuse it, and R501 lists the fault from
`modpc` alone). `ldtime` writes two words to its register pair, whose value is not defined (R401, U18). -/
def Obligations.ProcessManagementOutsideVirtualMode : Prop :=
  ∀ (s : State) (x y z : Src) (d : Dst) (r : Reg),
    exec (.send x y z) s = .refused (.processManagement "send") ∧
    exec (.sendserv x) s = .refused (.processManagement "sendserv") ∧
    exec (.receive x d) s = .refused (.processManagement "receive") ∧
    exec (.condrec x d) s = .refused (.processManagement "condrec") ∧
    exec (.signal x) s = .refused (.processManagement "signal") ∧
    exec (.wait x) s = .refused (.processManagement "wait") ∧
    exec (.condwait x) s = .refused (.processManagement "condwait") ∧
    exec (.schedprcs x) s = .refused (.processManagement "schedprcs") ∧
    exec .saveprcs s = .refused (.processManagement "saveprcs") ∧
    exec (.resumprcs x) s = (if s.supervisor then .refused (.processManagement "resumprcs")
      else takeFault .mismatch s.ip s.ip s) ∧
    exec (.ldphy x d) s = .refused (.physicalModeUndefined "ldphy") ∧
    exec (.inspacc x d) s = .refused (.physicalModeUndefined "inspacc") ∧
    (r.toNat % 2 = 0 → ∃ v w, Gives (exec (.ldtime (.reg r)) s) (Writes s r [v, w] s.ac 4#32))

/-- R411, R412, R414: `movstr` leaves the source's original bytes at the destination even where the two overlap, `movqstr`
where they do not, `fill` the repeated word; no byte outside the destination changes; a source that is rejected is
Machine.BadAccess (R503). That it is raised before any byte is written, where the rules' pseudocode would have written the bytes
before it, is the model's choice (log 38, DESIGN CHOICE). -/
def Obligations.StringsAreMovedAndFilled : Prop :=
  ∀ (s : State) (x y z : Src), s.mem.wf = true →
    let d := srcVal s x
    let a := srcVal s y
    let n := (srcVal s z).toNat
    let gives := fun (i : Instr) (byte : Nat → Byte) => Gives (exec i s) fun t => SameRegisters s t ∧ t.ac = s.ac ∧
      t.ip = s.ip + 4#32 ∧ State.SameOutside d n s t ∧
      ∀ k < n, kindAt s.memMap (d + BitVec.ofNat 32 k).toNat = .ram → t.readByte (d + BitVec.ofNat 32 k) = byte k
    (s.readable a n = true → d.toNat + n ≤ 2 ^ 32 → a.toNat + n ≤ 2 ^ 32 →
      gives (.movstr x y z) (fun k => s.readByte (a + BitVec.ofNat 32 k)) ∧
      (d.toNat + n ≤ a.toNat ∨ a.toNat + n ≤ d.toNat →
        gives (.movqstr x y z) (fun k => s.readByte (a + BitVec.ofNat 32 k)))) ∧
    (s.readable a n = true → ∀ i ∈ [Instr.movstr x y z, .movqstr x y z],
      Gives (exec i s) fun t => SameRegisters s t ∧ t.ac = s.ac ∧ t.ip = s.ip + 4#32 ∧ State.SameOutside d n s t) ∧
    (s.readable a n = false → exec (.movstr x y z) s = takeFault .badAccess s.ip s.ip s ∧
      exec (.movqstr x y z) s = takeFault .badAccess s.ip s.ip s) ∧
    gives (.fill x y z) (fun k => a.extractLsb' (8 * (k % 4)) 8)

/-- R413: `cmpstr` compares byte by byte: 010 when all are equal, otherwise 100 or 001 by the first that differ, as
unsigned bytes; a byte it comes to that is rejected is Machine.BadAccess (R503). -/
def Obligations.StringsAreCompared : Prop :=
  ∀ (s : State) (x y z : Src),
    let a := fun k : Nat => srcVal s x + BitVec.ofNat 32 k
    let b := fun k : Nat => srcVal s y + BitVec.ofNat 32 k
    let n := (srcVal s z).toNat
    let gives := fun c : BitVec 3 => Gives (exec (.cmpstr x y z) s) (Writes s 0#5 [] { s.ac with cc := c } 4#32)
    let ready := fun m : Nat => ∀ k < m, s.readable (a k) 1 = true ∧ s.readable (b k) 1 = true
    let same := fun m : Nat => ∀ k < m, s.readByte (a k) = s.readByte (b k)
    (ready n → same n → gives 0b010) ∧
    ∀ k < n, same k →
      (ready (k + 1) →
        ((s.readByte (a k)).toNat < (s.readByte (b k)).toNat → gives 0b100) ∧
        ((s.readByte (b k)).toNat < (s.readByte (a k)).toNat → gives 0b001)) ∧
      (ready k → (s.readable (a k) 1 = false ∨ s.readable (b k) 1 = false) →
        exec (.cmpstr x y z) s = takeFault .badAccess s.ip s.ip s)

/-- R415 to R417: `dmovt` copies its source and says in the condition code whether its low byte is an ASCII digit (U20);
`daddc` and `dsubc` put a decimal digit into the low four bits of the second source, the carry in bit 1 of the condition
code; with a nibble above 9 both are some value (U21). -/
def Obligations.DecimalOperations : Prop :=
  ∀ (s : State) (x y : Src) (r : Reg),
    let a := srcVal s x
    let b := srcVal s y
    let c := (s.ac.cc.getLsbD 1).toNat
    let m := (a.extractLsb' 0 4).toNat
    let n := (b.extractLsb' 0 4).toNat
    Gives (exec (.dmovt x (.reg r)) s) (Writes s r [a]
      { s.ac with cc := if 0x30#8 ≤ a.extractLsb' 0 8 ∧ a.extractLsb' 0 8 ≤ 0x39#8 then 0b000 else 0b010 } 4#32) ∧
    ∀ i ∈ [Instr.daddc x y (.reg r), .dsubc x y (.reg r)], ∃ v : Word, ∃ k ∈ [0b000#3, 0b010#3],
      Gives (exec i s) (Writes s r [v] { s.ac with cc := k } 4#32) ∧ v.extractLsb' 4 28 = b.extractLsb' 4 28 ∧
      (m ≤ 9 → n ≤ 9 → (v.extractLsb' 0 4).toNat ≤ 9 ∧
        (i = .daddc x y (.reg r) → n + m + c = (v.extractLsb' 0 4).toNat + 10 * (k.getLsbD 1).toNat) ∧
        (i = .dsubc x y (.reg r) → n + 10 + c = (v.extractLsb' 0 4).toNat + m + 1 + 10 * (k.getLsbD 1).toNat))

/-! ### Faults, interrupts, traces -/

/-- R507, R508, R512: a fault whose table entry names a local procedure writes the fault record below the new frame and
enters the handler in a frame of return status 001, with the saved ip in the faulting frame's r2; AC is unchanged, and PC
too, but that a trace fault clears PC.te; the record's lower words are not defined (log 3). If no register set is free the
oldest is written to its frame. That a procedure-table entry is followed in physical mode, as `calls` follows it, with a switch
to the supervisor stack from user mode (R509), where R508 says that only local entries can be used there, and that the
reserved kinds of entry are refused, are the model's choices (log 4). -/
def Obligations.FaultsEnterTheirHandler : Prop :=
  ∀ (s : State) (e : Exn) (ip savedIp : Word), s.cached.length ≤ cacheDepth →
    let n := e.typeNumber
    let entryAt := s.faultTable + BitVec.ofNat 32 (8 * n)
    let entry := s.readWord entryAt
    let procAt := s.sysProcTable + BitVec.ofNat 32 (48 + 4 * (entry.toNat / 4))
    let ssp := s.readWord (s.sysProcTable + 12#32)
    let up := fun a : Word => (a + 63#32) &&& 0xFFFFFFC0#32
    let enters := fun (target stack : Word) (em te : Bool) =>
      let nfp := up (up stack + 44#32)
      s.ramAt (nfp - 16#32) 16 → (∀ f ∈ s.flushed, Apart f.frame 64 (nfp - 16#32) 16) → ∃ owed : Word,
        (owed = 0#32 ∨ (owed = 8#32 ∧ s.te = true ∧ s.tctl.getLsbD 5 = true)) ∧
        Gives (takeFault e ip savedIp s) fun t =>
          Entered s savedIp nfp ((s.contents 31#5 &&& 0xFFFFFFC0#32) ||| 1#32 ||| owed) t ∧
          t.ip = target &&& 0xFFFFFFFC#32 ∧ t.readWord (nfp - 4#32) = ip ∧
          t.readWord (nfp - 8#32) = BitVec.ofNat 32 (n * 2 ^ 16 + e.subtype.toNat) ∧
          t.readWord (nfp - 12#32) = s.ac.toWord ∧ t.readWord (nfp - 16#32) = s.pctl ∧ Flushed s t ∧
          (∀ x, 44 ≤ (x - (nfp - 44#32)).toNat → (∀ f ∈ s.flushed, 64 ≤ (x - f.frame).toNat) →
            t.readByte x = s.readByte x) ∧
          t.supervisor = em ∧ t.te = (te && n != 1) ∧
          (∀ k, 2 ≤ k → t.pctl.getLsbD k = s.pctl.getLsbD k) ∧ t.tctl = s.tctl ∧ t.proc = s.proc
    s.readable entryAt 8 = true →
      (entry.extractLsb' 0 2 = 0b00#2 → enters entry (s.contents 1#5) s.supervisor s.te) ∧
      (entry.extractLsb' 0 2 = 0b10#2 → entry.toNat / 4 ≤ 259 → s.readable procAt 4 = true →
        let proc := s.readWord procAt
        (proc.extractLsb' 0 2 = 0b00#2 ∨ s.supervisor = true → enters proc (s.contents 1#5) s.supervisor s.te) ∧
        (proc.extractLsb' 0 2 = 0b10#2 → s.supervisor = false → s.readable (s.sysProcTable + 12#32) 4 = true →
          enters proc (ssp &&& 0xFFFFFFFC#32) true (ssp.getLsbD 0))) ∧
      (entry.extractLsb' 0 2 = 0b01#2 ∨ entry.extractLsb' 0 2 = 0b11#2 →
        takeFault e ip savedIp s = .refused .reservedFaultEntry)

/-- R513: when the table entry of a fault is a bad access, the override fault's handler, entry 0, is entered, with a record of
type 0 that names the second fault and, in its override word, the first; when that is a bad access too, PC.ref is set and the
system-error interrupt, vector 248, taken; and when that fails, the processor stops, with such a record in the PRCB. Where the
two words of the record name the two faults is the model's choice (log 5). -/
def Obligations.FailedFaultsEscalate : Prop :=
  ∀ (s : State) (e : Exn) (ip savedIp : Word),
    let first := BitVec.ofNat 32 (e.typeNumber * 2 ^ 16 + e.subtype.toNat)
    let nfp := (((s.contents 1#5 + 63#32) &&& 0xFFFFFFC0#32) + 44#32 + 63#32) &&& 0xFFFFFFC0#32
    s.readable (s.faultTable + BitVec.ofNat 32 (8 * e.typeNumber)) 8 = false →
      (s.readable s.faultTable 8 = true → (s.readWord s.faultTable).extractLsb' 0 2 = 0b00#2 →
        Gives (takeFault e ip savedIp s) fun t => t.ip = s.readWord s.faultTable &&& 0xFFFFFFFC#32 ∧
          t.ac = s.ac ∧ t.pctl = s.pctl ∧ (t.contents 0#5).extractLsb' 0 3 = 0b001#3 ∧
          (s.ramAt (nfp - 20#32) 20 → (∀ f ∈ s.flushed, Apart f.frame 64 (nfp - 20#32) 20) →
            s.cached.length ≤ cacheDepth → t.readWord (nfp - 4#32) = ip ∧ t.readWord (nfp - 8#32) = 0x0801#32 ∧
              t.readWord (nfp - 12#32) = s.ac.toWord ∧ t.readWord (nfp - 16#32) = s.pctl ∧
              t.readWord (nfp - 20#32) = first)) ∧
      (s.readable s.faultTable 8 = false → s.readable (s.intTable + 996#32) 4 = true → (∀ i < 4, ∀ j < 44,
          s.intTable + 996#32 + BitVec.ofNat 32 i ≠ s.prcb + 128#32 + BitVec.ofNat 32 j) →
        (∀ i < 4, ∀ j < 4, s.intTable + 996#32 + BitVec.ofNat 32 i ≠ s.prcb + 72#32 + BitVec.ofNat 32 j) →
        Gives (takeFault e ip savedIp s) fun t => t.ip = s.readWord (s.intTable + 996#32) &&& 0xFFFFFFFC#32 ∧
          t.supervisor = true ∧ t.te = false ∧ t.pctl.extractLsb' 16 5 = 31#5 ∧ t.pctl.getLsbD 12 = true ∧ t.ac = s.ac ∧
          (t.contents 0#5).extractLsb' 0 3 = 0b111#3) ∧
      (s.readable s.faultTable 8 = false → s.readable (s.intTable + 996#32) 4 = false →
        Gives (takeFault e ip savedIp s) fun t => t.proc = .stopped ∧ t.ac = s.ac ∧
          t.pctl = s.pctl ||| BitVec.twoPow 32 12 ∧ (s.restarted = false → step t = .fault .stopped) ∧
          (∀ q, t.contents q = s.contents q) ∧
          (s.ramAt (s.prcb + 128#32) 44 → t.readWord (s.prcb + 168#32) = ip ∧ t.readWord (s.prcb + 164#32) = 0x0801#32 ∧
            t.readWord (s.prcb + 160#32) = s.ac.toWord ∧
            t.readWord (s.prcb + 156#32) = s.pctl ||| BitVec.twoPow 32 12 ∧ t.readWord (s.prcb + 152#32) = first))

/-- R533: an interrupt saves PC, AC and its vector below a new frame of return status 111, on the interrupt stack or, in an
interrupt handler, on the stack in use, and enters the handler of its vector in supervisor mode, interrupted, at the
vector's priority, with tracing off (the bits of PC it leaves alone are the model's reading, log 6). If no register set is
free the oldest is written to its frame. An executing processor becomes interrupted and an idle one idle interrupted (R54). -/
def Obligations.InterruptsEnterTheirHandler : Prop :=
  ∀ (s : State) (v : BitVec 8) (returnIp : Word), s.cached.length ≤ cacheDepth →
    let entryAt := s.intTable + 4#32 + BitVec.ofNat 32 (4 * v.toNat)
    let up := fun a : Word => (a + 63#32) &&& 0xFFFFFFC0#32
    let nfp := up (up (if s.pctl.extractLsb' 13 2 = 1#2 then s.contents 1#5 else s.intStack) + 16#32)
    s.readable entryAt 4 = true → s.ramAt (nfp - 16#32) 12 →
      (∀ f ∈ s.flushed, Apart f.frame 64 (nfp - 16#32) 12) → ∃ t, s.interruptEntry v returnIp = .ok t ∧
      Entered s returnIp nfp ((s.contents 31#5 &&& 0xFFFFFFC0#32) ||| 7#32) t ∧
      t.ip = s.readWord entryAt &&& 0xFFFFFFFC#32 ∧ t.readWord (nfp - 16#32) = s.pctl ∧
      t.readWord (nfp - 12#32) = s.ac.toWord ∧ t.readWord (nfp - 8#32) = v.setWidth 32 ∧ Flushed s t ∧
      (∀ x, 12 ≤ (x - (nfp - 16#32)).toNat → (∀ f ∈ s.flushed, 64 ≤ (x - f.frame).toNat) →
        t.readByte x = s.readByte x) ∧
      t.supervisor = true ∧ t.te = false ∧
      t.pctl.extractLsb' 13 2 = 1#2 ∧ t.pctl.extractLsb' 16 5 = BitVec.ofNat 5 (v.toNat / 8) ∧
      (∀ k, k ∉ [0, 1, 8, 13, 14, 16, 17, 18, 19, 20] → t.pctl.getLsbD k = s.pctl.getLsbD k) ∧ t.tctl = s.tctl ∧
      (s.proc = .executing → t.proc = .interrupted) ∧ (s.proc = .idle → t.proc = .idleInterrupted) ∧
      (s.proc = .interrupted ∨ s.proc = .idleInterrupted → t.proc = s.proc)

/-- R560, R562: an instruction that completes with tracing on and an event whose mode is on takes a trace fault, saved at the
next instruction, with the events' flags set in TC, PC.tfp set and nothing else changed; with tracing off nothing is
reported. An instruction at an enabled breakpoint register has the breakpoint event, and every one the instruction event. -/
def Obligations.TraceEventsAreReported : Prop :=
  ∀ s t : State,
    let events := t.traced &&& s.tctl.extractLsb' 0 8 &&& 0xFE#8
    let traced : State :=
      { t with
        tctl := t.tctl ||| (events.setWidth 32 <<< 16)
        pctl := t.pctl ||| BitVec.twoPow 32 10
        serial := t.serial + 1 }
    (t.te = false ∨ events = 0#8 → s.finish (.next t) = .next { t with traced := 0#8, serial := t.serial + 1 }) ∧
    (t.te = true → events ≠ 0#8 → s.finish (.next t) = match takeFault (.trace events) s.ip t.ip traced with
      | .next v => .next { v with serial := v.serial + 1 }
      | r => r) ∧
    s.begin.traced.getLsbD 1 = true ∧
    (s.begin.traced.getLsbD 7 = true ↔ (s.bp0.enabled = true ∧ s.bp0.addr = s.ip) ∨ (s.bp1.enabled = true ∧ s.bp1.addr = s.ip))

/-! ### Floating point -/

namespace Sys2Proof.Machine

/-- The arithmetic instructions of two sources (R435 to R442). -/
def fpBinaryRows : List (FpFormat × (FSrc → FSrc → FDst → Instr) × (Nat → BitVec 2 → FpNum → FpNum → FpResult)) :=
  [(.real, .addr, fpAdd), (.long, .addrl, fpAdd), (.real, .subr, fpSub), (.long, .subrl, fpSub),
   (.real, .mulr, fpMul), (.long, .mulrl, fpMul), (.real, .divr, fpDiv), (.long, .divrl, fpDiv)]

/-- The arithmetic instructions of one source (R445 to R448, R451, R452). -/
def fpUnaryRows : List (FpFormat × (FSrc → FDst → Instr) × (Nat → BitVec 2 → FpNum → FpResult)) :=
  [(.real, .sqrtr, fpSqrt), (.long, .sqrtrl, fpSqrt), (.real, .roundr, fpRoundIntegral),
   (.long, .roundrl, fpRoundIntegral), (.real, .logbnr, fpLogBinary), (.long, .logbnrl, fpLogBinary)]

/-- The transcendentals of one source (R457 to R464). -/
def transUnaryRows : List (FpFormat × (FSrc → FDst → Instr)) :=
  [(.real, .expr), (.long, .exprl), (.real, .sinr), (.long, .sinrl), (.real, .cosr), (.long, .cosrl), (.real, .tanr),
   (.long, .tanrl)]

/-- The transcendentals of two sources (R453 to R456, R465, R466). -/
def transBinaryRows : List (FpFormat × (FSrc → FSrc → FDst → Instr)) :=
  [(.real, .logr), (.long, .logrl), (.real, .logepr), (.long, .logeprl), (.real, .atanr), (.long, .atanrl)]

/-- The instructions of two floating-point sources and a destination. -/
def fpTwoSourceRows : List (FpFormat × (FSrc → FSrc → FDst → Instr)) :=
  fpBinaryRows.map (fun row => (row.1, row.2.1)) ++ transBinaryRows ++
    [(.real, .remr), (.long, .remrl), (.extended, .cpysre), (.extended, .cpyrsre)]

/-- The instructions of one floating-point source and a destination. -/
def fpOneSourceRows : List (FpFormat × (FSrc → FDst → Instr)) :=
  fpUnaryRows.map (fun row => (row.1, row.2.1)) ++ transUnaryRows ++
    [(.real, .movr), (.long, .movrl), (.extended, .movre)]

/-- The comparisons of reals (R467 to R470), and whether they require ordered operands. -/
def fpCompareRows : List (FpFormat × Bool × (FSrc → FSrc → Instr)) :=
  [(.real, false, .cmpr), (.long, false, .cmprl), (.real, true, .cmpor), (.long, true, .cmporl)]

/-- The conversions of a real to an integer (R475 to R478). -/
def fpToIntRows : List (FSrc → Dst → Instr) := [.cvtri, .cvtril, .cvtzri, .cvtzril]

/-- A source that is no misaligned group and no reserved code (R139, R202). -/
def SourceStarts (f : FpFormat) : FSrc → Prop
  | .reg r => r.toNat % (if f.words = 3 then 4 else f.words) = 0
  | .reserved _ => False
  | _ => True

/-- A source whose value raises the reserved-encoding fault: a reserved encoding in a floating-point register, or a
denormalized number without the normalizing mode (R428). -/
def BadEncoding (s : State) (f : FpFormat) (x : FSrc) : Prop :=
  ((∃ k, x = .fp k) ∧ (sourceOperand s f x).cls = .reserved) ∨
    ((sourceOperand s f x).cls = .denormal ∧ s.ac.nm = false)

/-- A source that is one of the reserved codes (R139). -/
def ReservedCode (x : FSrc) : Prop := ∃ c, x = .reserved c

/-- What an operation of one source comes to before rounding: a NaN operand is propagated (R429). -/
def oneSourceResult (s : State) (f : FpFormat) (op : FpNum → FpResult) (x : FSrc) : FpResult :=
  if (sourceOperand s f x).isNaN then nanResult s.serial (sourceOperand s f x) (sourceOperand s f x)
  else op (sourceOperand s f x).num

/-- The same of an operation of two sources. -/
def twoSourceResult (s : State) (f : FpFormat) (op : FpNum → FpNum → FpResult) (x y : FSrc) : FpResult :=
  if (sourceOperand s f x).isNaN || (sourceOperand s f y).isNaN
  then nanResult s.serial (sourceOperand s f x) (sourceOperand s f y)
  else op (sourceOperand s f x).num (sourceOperand s f y).num

/-- Some quiet NaN is delivered with the invalid exception (R428). -/
def DeliversInvalid (s : State) (f : FpFormat) (d : FDst) (x : Res) : Prop :=
  ∃ (neg : Bool) (sig : BitVec 64), sig.getLsbD 63 = true ∧ sig.getLsbD 62 = true ∧
    Delivers s f d (encodeNum (targetFormat f d) (.nan neg sig)) { invalid := true } x

/-- An undefined value goes into one floating-point register or one register (U2), AC becomes `ac`, and nothing else
changes. -/
def FpStrays (s : State) (ac : ArithControls) (t : State) : Prop :=
  (∃ k bits, FpWrites s .extended (.fp k) bits ac t) ∨ ∃ r v, Writes s r [v] ac 4#32 t

/-- A conversion to an integer ends with some words in the registers from `r` up, exact, inexact or with an integer overflow,
or in the fault of the exception it signals (R428, R475, R504). -/
def DeliversInteger (s : State) (r : Reg) (ws : List Word) (x : Res) : Prop :=
  (∃ exc ∈ [({} : FpExceptions), { inexact := true }],
    (Masked s exc → Gives x (Writes s r ws (withFlags s.ac exc) 4#32)) ∧ Traps s exc x) ∨
  ((s.ac.om = true → Gives x (Writes s r ws { s.ac with oflow := true } 4#32)) ∧
    (s.ac.om = false → ∃ t, Writes s r ws s.ac 4#32 t ∧ x = takeFault .integerOverflow s.ip t.ip t))

/-- Does a move change the format (R430)? General registers hold the instruction's own format, everything else the
extended one. -/
def movesConvert (f : FpFormat) : FSrc → FDst → Bool
  | .reg _, .fp _ => f != .extended
  | .reg _, _ => false
  | _, .fp _ => false
  | _, _ => f != .extended

/-- The bits of a source that a move within one format copies, and that the copy-sign instructions read (R430 to R434). -/
def sourceBits (s : State) (f : FpFormat) : FSrc → Ext
  | .reg r =>
    match f with
    | .real => (s.readReg r).setWidth 80
    | .long => (s.readReg (r + 1#5) ++ s.readReg r).setWidth 80
    | .extended => (s.readReg (r + 2#5)).extractLsb' 0 16 ++ s.readReg (r + 1#5) ++ s.readReg r
  | .fp k => s.fps[k.toFin]
  | .one => 0x3FFF8000000000000000#80
  | _ => 0#80

/-- The real number a finite result denotes. -/
noncomputable def FpNum.value : FpNum → ℝ
  | .fin neg m e => (if neg then -1 else 1) * (m : ℝ) * (2 : ℝ) ^ e
  | _ => 0

/-- A zero or a finite number. -/
def FpNum.Finite : FpNum → Prop
  | .zero _ => True
  | .fin _ m _ => 0 < m
  | _ => False

/-- A number a format can hold (R426): at most `precision` significant bits, the exponent in range. -/
def Representable (f : FpFormat) (y : ℝ) : Prop :=
  ∃ (neg : Bool) (m : Nat) (e : Int), m < 2 ^ f.precision ∧ f.lastExp ≤ e ∧ e ≤ f.maxExp - f.precision + 1 ∧
    y = (FpNum.fin neg m e).value

/-- `n` is `x` rounded to a format (R429, IEEE 754): to nearest, with an even significand between two that are equally near;
down; up; toward zero. -/
def RoundsTo (f : FpFormat) (rc : BitVec 2) (x : ℝ) (n : FpNum) : Prop :=
  Representable f n.value ∧
  (rc = 0#2 → ∀ y, Representable f y → |x - n.value| ≤ |x - y| ∧
    (y ≠ n.value → |x - y| = |x - n.value| → ∀ neg m e, n = .fin neg m e → m % 2 = 0)) ∧
  (rc = 1#2 → n.value ≤ x ∧ ∀ y, Representable f y → y ≤ x → y ≤ n.value) ∧
  (rc = 2#2 → x ≤ n.value ∧ ∀ y, Representable f y → x ≤ y → n.value ≤ y) ∧
  (rc = 3#2 → |n.value| ≤ |x| ∧ 0 ≤ n.value * x ∧ ∀ y, Representable f y → |y| ≤ |x| → 0 ≤ y * x → |y| ≤ |n.value|)

/-- The integer `n` is `x` rounded under `rc`: to nearest, to even between two; down; up; toward zero (R429). -/
def RoundsToInt (rc : BitVec 2) (x : ℝ) (n : Int) : Prop :=
  (rc = 0#2 → |x - n| ≤ 1 / 2 ∧ (|x - n| = 1 / 2 → n % 2 = 0)) ∧ (rc = 1#2 → n = ⌊x⌋) ∧ (rc = 2#2 → n = ⌈x⌉) ∧
  (rc = 3#2 → n = if 0 ≤ x then ⌊x⌋ else ⌈x⌉)

/-- A magnitude too large for a format under `rc` (R428, IEEE 754): rounded as if the exponent had no bound, it would be
`2 ^ (maxExp + 1)` or more. -/
def TooLarge (f : FpFormat) (rc : BitVec 2) (neg : Bool) (v : ℝ) : Prop :=
  if rc = 0#2 then ((2 : ℝ) ^ (f.precision + 1) - 1) * (2 : ℝ) ^ ((f.maxExp : Int) - f.precision) ≤ v
  else if (rc = 1#2 ∧ neg = true) ∨ (rc = 2#2 ∧ neg = false) then
    ((2 : ℝ) ^ f.precision - 1) * (2 : ℝ) ^ ((f.maxExp : Int) - f.precision + 1) < v
  else (2 : ℝ) ^ (f.maxExp + 1) ≤ v

/-- R426: what an encoding with these fields denotes: `bits` fraction bits, exponents from 0 to `2 * bias + 1`. -/
def ReadsAs (a : FpOperand) (neg : Bool) (exp frac bias bits : Nat) : Prop :=
  let sign : ℝ := if neg then -1 else 1
  a.neg = neg ∧
  (exp = 0 → frac = 0 → a.cls = .zero ∧ a.num = .zero neg) ∧
  (exp = 0 → frac ≠ 0 → a.cls = .denormal ∧ a.num.Finite ∧
    a.num.value = sign * (frac / 2 ^ bits) * (2 : ℝ) ^ (1 - (bias : Int))) ∧
  (0 < exp → exp < 2 * bias + 1 → a.cls = .normal ∧ a.num.Finite ∧
    a.num.value = sign * (1 + frac / 2 ^ bits) * (2 : ℝ) ^ ((exp : Int) - bias)) ∧
  (exp = 2 * bias + 1 → frac = 0 → a.cls = .infinity ∧ a.num = .inf neg) ∧
  (exp = 2 * bias + 1 → frac ≠ 0 → a.cls = (if frac < 2 ^ (bits - 1) then .signalingNaN else .quietNaN) ∧
    a.num = .nan neg (BitVec.ofNat 64 (2 ^ 63 + frac * 2 ^ (63 - bits))))

end Sys2Proof.Machine

/-- R428, R429, R435 to R452, D20: the sum, difference, product, quotient and square root of finite operands are the exact
results rounded once to the destination's format, with inexact signalled exactly when that changes them; overflow is signalled
exactly where rounding with an unbounded exponent would pass the largest exponent, and then delivers an infinity or the largest
finite number by rounding and sign, with inexact. The remainder is that of the truncated quotient, with the sign of the
dividend; rounding to integral gives the integer the rounding control selects; the binary exponent is the floor of the
logarithm; scaling multiplies by a power of two: these four are exact, the last three with no exception of their own but the
inexact of rounding (log 82). -/
def Obligations.ArithmeticIsRoundedOnce : Prop :=
  (∀ (f : FpFormat) (rc : BitVec 2) (k : Nat) (x y : FpNum), x.Finite → y.Finite →
    (∀ neg m e, x = .fin neg m e → m < 2 ^ 64) →
    let ok := fun (r : FpResult) (v : ℝ) => (roundNum f rc r.num).exc.overflow = false →
      RoundsTo f rc v (roundNum f rc r.num).num ∧
      ((roundNum f rc r.num).exc.inexact = false ↔ (roundNum f rc r.num).num.value = v)
    ok { num := x } x.value ∧ ok (fpAdd k rc x y) (y.value + x.value) ∧ ok (fpSub k rc x y) (y.value - x.value) ∧
    ok (fpMul k rc x y) (y.value * x.value) ∧
    ((∀ b, x ≠ .zero b) → ok (fpDiv k rc x y) (y.value / x.value)) ∧
    (0 ≤ x.value → ok (fpSqrt k rc x) (Real.sqrt x.value))) ∧
  (∀ (f : FpFormat) (rc : BitVec 2) (neg : Bool) (m : Nat) (e : Int), 0 < m →
    let r := roundNum f rc (.fin neg m e)
    (r.exc.overflow = true ↔ TooLarge f rc neg |(FpNum.fin neg m e).value|) ∧
    (r.exc.overflow = true → r.exc.inexact = true ∧
      r.num = if rc = 0#2 ∨ (rc = 1#2 ∧ neg = true) ∨ (rc = 2#2 ∧ neg = false) then .inf neg
        else .fin neg (2 ^ f.precision - 1) ((f.maxExp : Int) - f.precision + 1))) ∧
  ∀ (rc : BitVec 2) (k : Nat) (n : Int) (x y : FpNum), x.Finite → y.Finite →
    ((∀ b, x ≠ .zero b) →
      let r := fpRem k rc x y
      let q := y.value / x.value
      r.exc = {} ∧ r.num.Finite ∧ r.num.sign = y.sign ∧
        r.num.value = y.value - x.value * (if 0 ≤ q then (⌊q⌋ : ℝ) else (⌈q⌉ : ℝ))) ∧
    (∃ i : Int, RoundsToInt rc x.value i ∧ (fpRoundIntegral k rc x).num.Finite ∧
      (fpRoundIntegral k rc x).num.sign = x.sign ∧ (fpRoundIntegral k rc x).num.value = i ∧
      ∃ b : Bool, (b = false ↔ x.value = i) ∧ (fpRoundIntegral k rc x).exc = { inexact := b }) ∧
    ((∀ b, x ≠ .zero b) → (fpLogBinary k rc x).exc = {} ∧ (fpLogBinary k rc x).num.Finite ∧
      (fpLogBinary k rc x).num.value = (Int.log 2 |x.value| : ℝ)) ∧
    ((fpScale n y).exc = {} ∧ (fpScale n y).num.Finite ∧ (fpScale n y).num.sign = y.sign ∧
      (fpScale n y).num.value = y.value * (2 : ℝ) ^ n)

/-- R426: the three formats: where the sign, the exponent and the fraction lie, the biases 127, 1023 and 16383, the implicit
integer bit of the shorter two and the explicit one of extended reals, whose disagreement with the exponent is a reserved
encoding; zeros, denormalized and normal numbers, infinities, quiet and signaling NaNs. Every format reads back the finite
numbers it can hold, in their one form, from the words it writes them in. -/
def Obligations.FormatsRoundTrip : Prop :=
  (∀ (f : FpFormat) (neg : Bool) (m : Nat) (e : Int),
    (2 ^ (f.precision - 1) ≤ m ∧ m < 2 ^ f.precision ∧ f.lastExp ≤ e ∧ e ≤ f.maxExp - f.precision + 1) ∨
      (0 < m ∧ m < 2 ^ (f.precision - 1) ∧ e = f.lastExp) →
    (decodeWords f (wordsOfExt f (encodeNum f (.fin neg m e)))).num = .fin neg m e ∧
    (decodeWords f (wordsOfExt f (encodeNum f (.inf neg)))).num = .inf neg ∧
    (decodeWords f (wordsOfExt f (encodeNum f (.zero neg)))).num = .zero neg) ∧
  (∀ (neg : Bool) (exp : BitVec 8) (frac : BitVec 23),
    ReadsAs (decodeWords .real [BitVec.ofBool neg ++ exp ++ frac]) neg exp.toNat frac.toNat 127 23) ∧
  (∀ (neg : Bool) (exp : BitVec 11) (high : BitVec 20) (low : Word),
    ReadsAs (decodeWords .long [low, BitVec.ofBool neg ++ exp ++ high]) neg exp.toNat (high ++ low).toNat 1023 52) ∧
  ∀ (unused : BitVec 16) (neg : Bool) (exp : BitVec 15) (j : Bool) (high : BitVec 31) (low : Word),
    let a := decodeWords .extended [low, BitVec.ofBool j ++ high, unused ++ (BitVec.ofBool neg ++ exp)]
    a.neg = neg ∧
    ((exp = 0#15 → j = false) → (exp ≠ 0#15 → j = true) →
      ReadsAs a neg exp.toNat (high ++ low).toNat 16383 63) ∧
    ((exp = 0#15 ∧ j = true) ∨ (exp ≠ 0#15 ∧ j = false) → a.cls = .reserved)

/-- R435 to R452: with every exception masked, the arithmetic instructions deliver to their destination the rounded result of
their operation, or the propagated NaN, and set the flags of the exceptions it signals; a remainder leaves AC.as undefined
(U24), and the sign of the infinity it delivers with a zero-divide is the model's choice (log 91); scaling adds the integer to the
exponent, a literal count being undefined (U25). -/
def Obligations.FloatingPointArithmeticCompletes : Prop :=
  ∀ (s : State) (x y : FSrc) (z : Src) (d : FDst), AllMasked s.ac →
    let delivers := fun (f : FpFormat) (i : Instr) (r : FpResult) =>
      Gives (exec i s) (FpWrites s f d (deliveredBits (targetFormat f d) s.ac.rc r)
        (withFlags s.ac (deliveredExceptions (targetFormat f d) s.ac.rc r)))
    let nan := fun f : FpFormat => (sourceOperand s f x).isNaN || (sourceOperand s f y).isNaN
    (∀ row ∈ fpBinaryRows, SourceReady s row.1 x → SourceReady s row.1 y → TargetReady row.1 d →
      delivers row.1 (row.2.1 x y d)
        (if nan row.1 then nanResult s.serial (sourceOperand s row.1 x) (sourceOperand s row.1 y)
        else row.2.2 s.serial s.ac.rc (sourceOperand s row.1 x).num (sourceOperand s row.1 y).num)) ∧
    (∀ row ∈ fpUnaryRows, SourceReady s row.1 x → TargetReady row.1 d →
      delivers row.1 (row.2.1 x d)
        (if (sourceOperand s row.1 x).isNaN then nanResult s.serial (sourceOperand s row.1 x) (sourceOperand s row.1 x)
        else row.2.2 s.serial s.ac.rc (sourceOperand s row.1 x).num)) ∧
    (∀ row ∈ [(FpFormat.real, Instr.remr x y d), (.long, .remrl x y d)],
      SourceReady s row.1 x → SourceReady s row.1 y → TargetReady row.1 d →
        let r := if nan row.1 then nanResult s.serial (sourceOperand s row.1 x) (sourceOperand s row.1 y)
          else fpRem s.serial s.ac.rc (sourceOperand s row.1 x).num (sourceOperand s row.1 y).num
        ∃ v : BitVec 4, Gives (exec row.2 s) (FpWrites s row.1 d (deliveredBits (targetFormat row.1 d) s.ac.rc r)
          { withFlags s.ac (deliveredExceptions (targetFormat row.1 d) s.ac.rc r) with ast := v })) ∧
    (∀ row ∈ [(FpFormat.real, Instr.scaler z y d), (.long, .scalerl z y d)],
      SourceReady s row.1 y → TargetReady row.1 d →
        ∃ n : Int, (∀ q, z = .reg q → n = (s.readReg q).toInt) ∧
          delivers row.1 row.2 (if (sourceOperand s row.1 y).isNaN
            then nanResult s.serial (sourceOperand s row.1 y) (sourceOperand s row.1 y)
            else fpScale n (sourceOperand s row.1 y).num))

/-- R428, R453 to R466, D20: with every exception masked, a transcendental writes its destination and sets flags only. Where
the spec gives the value or the exception it is that: the logarithm of a negative number, and the sine, cosine and tangent of an
infinity, are invalid; the logarithm of a zero, times a number that is not zero, is zero-divide; the logarithm of a power of two
is exact; a zero or very small (log 81) argument is its own sine; the cosine of a zero is 1.0; tangent and exponent minus one of
+0.0 are +0.0, as is a positive number times the epsilon logarithm of +0.0. -/
def Obligations.TranscendentalsComplete : Prop :=
  ∀ (s : State) (x y : FSrc) (d : FDst),
    (AllMasked s.ac →
      let completes := fun (f : FpFormat) (i : Instr) => ∃ bits ac, OnlyFlagsSet s.ac ac ∧
        Gives (exec i s) (FpWrites s f d bits ac)
      (∀ row ∈ transUnaryRows, SourceReady s row.1 x → TargetReady row.1 d → completes row.1 (row.2 x d)) ∧
      ∀ row ∈ transBinaryRows, SourceReady s row.1 x → SourceReady s row.1 y → TargetReady row.1 d →
        completes row.1 (row.2 x y d)) ∧
    ∀ f ∈ [FpFormat.real, .long], SourceReady s f x → TargetReady f d →
      let a := (sourceOperand s f x).num
      let b := (sourceOperand s f y).num
      let run := fun i j : Instr => exec (if f = .real then i else j) s
      let gives := fun (n : FpNum) (r : Res) => Delivers s f d (encodeNum (targetFormat f d) n) {} r
      let log := run (.logr x y d) (.logrl x y d)
      let sin := run (.sinr x d) (.sinrl x d)
      (∀ n, a = .inf n → DeliversInvalid s f d sin ∧ DeliversInvalid s f d (run (.cosr x d) (.cosrl x d)) ∧
        DeliversInvalid s f d (run (.tanr x d) (.tanrl x d))) ∧
      (∀ n, a = .zero n → gives (.zero n) sin ∧
        gives (.fin false (2 ^ ((targetFormat f d).precision - 1)) (1 - (targetFormat f d).precision))
          (run (.cosr x d) (.cosrl x d))) ∧
      (a = .zero false →
        gives (.zero false) (run (.tanr x d) (.tanrl x d)) ∧ gives (.zero false) (run (.expr x d) (.exprl x d))) ∧
      (a.Finite → a.value ≠ 0 → |a.value| < (2 : ℝ) ^ (-32 : Int) →
        ∃ inexact, DeliversRounded s f d { num := a, exc := { inexact := inexact } } sin) ∧
      (SourceReady s f y →
        ((∃ m e, a = .fin true m e) ∨ a = .inf true → (∀ p sig, b ≠ .nan p sig) → DeliversInvalid s f d log) ∧
        (∀ n p, a = .zero n → (∃ m e, b = .fin p m e) ∨ b = .inf p →
          Delivers s f d (encodeNum (targetFormat f d) (.inf !p)) { zeroDivide := true } log) ∧
        (∀ n : Int, a.Finite → a.value = (2 : ℝ) ^ n → b.Finite → ∃ c : FpNum, c.Finite ∧ c.value = n * b.value ∧
          DeliversRounded s f d { num := c } log) ∧
        (∀ m e, a = .zero false → b = .fin false m e →
          gives (.zero false) (run (.logepr x y d) (.logeprl x y d))))

/-- R428: the exceptions an instruction signals are raised, if unmasked, in the order invalid, zero-divide, overflow,
underflow, inexact, with the destination unwritten and the fault saved at the instruction, the flags of the masked exceptions
before it being set; so a masked overflow or underflow may come before an unmasked inexact. This holds of the arithmetic
instructions, remainder, scaling, the moves that convert, the conversions of integers and the compares for the exceptions of
their result, and of the transcendentals for those their unit signals (log 46). A literal long integer is extended with zeros
(R138, log 71). -/
def Obligations.UnmaskedExceptionsTrap : Prop :=
  ∀ (s : State) (x y : FSrc) (z : Src) (d : FDst),
    let traps := fun (f : FpFormat) (i : Instr) (r : FpResult) =>
      Traps s (deliveredExceptions (targetFormat f d) s.ac.rc r) (exec i s)
    (∀ row ∈ fpBinaryRows, SourceReady s row.1 x → SourceReady s row.1 y → TargetReady row.1 d →
      traps row.1 (row.2.1 x y d) (twoSourceResult s row.1 (row.2.2 s.serial s.ac.rc) x y)) ∧
    (∀ row ∈ fpUnaryRows, SourceReady s row.1 x → TargetReady row.1 d →
      traps row.1 (row.2.1 x d) (oneSourceResult s row.1 (row.2.2 s.serial s.ac.rc) x)) ∧
    (∀ row ∈ [(FpFormat.real, Instr.remr x y d), (.long, .remrl x y d)],
      SourceReady s row.1 x → SourceReady s row.1 y → TargetReady row.1 d →
        traps row.1 row.2 (twoSourceResult s row.1 (fpRem s.serial s.ac.rc) x y)) ∧
    (∀ row ∈ [(FpFormat.real, Instr.scaler z y d), (.long, .scalerl z y d)],
      SourceReady s row.1 y → TargetReady row.1 d →
        ∃ n : Int, (∀ q, z = .reg q → n = (s.readReg q).toInt) ∧
          traps row.1 row.2 (oneSourceResult s row.1 (fpScale n) y)) ∧
    (∀ row ∈ [(FpFormat.real, Instr.movr x d), (.long, .movrl x d)],
      SourceReady s row.1 x → TargetReady row.1 d → movesConvert row.1 x d = true →
        traps row.1 row.2 (oneSourceResult s row.1 (fun n => { num := n }) x)) ∧
    (TargetReady .real d →
      traps .real (.cvtir z d) { num := .ofInt (srcVal s z).toInt } ∧
      (∀ q : Reg, q.toNat % 2 = 0 →
        traps .real (.cvtilr (.reg q) d) { num := .ofInt (s.readReg (q + 1#5) ++ s.readReg q).toInt }) ∧
      ∀ v : BitVec 5, traps .real (.cvtilr (.lit v) d) { num := .ofInt v.toNat }) ∧
    (∀ row ∈ transUnaryRows, SourceReady s row.1 x → TargetReady row.1 d →
      ∃ bits exc, Delivers s row.1 d bits exc (exec (row.2 x d) s)) ∧
    (∀ row ∈ transBinaryRows, SourceReady s row.1 x → SourceReady s row.1 y → TargetReady row.1 d →
      ∃ bits exc, Delivers s row.1 d bits exc (exec (row.2 x y d) s)) ∧
    ∀ row ∈ fpCompareRows, SourceReady s row.1 x → SourceReady s row.1 y →
      let a := sourceOperand s row.1 x
      let b := sourceOperand s row.1 y
      Traps s { invalid := if row.2.1 then a.isNaN || b.isNaN else a.cls == .signalingNaN || b.cls == .signalingNaN }
        (exec (row.2.2 x y) s)

/-- R428, R139, U1: a reserved encoding in a floating-point register, and a denormalized operand without the normalizing mode,
in either source of any floating-point instruction but a classification, raise FloatingPoint.ReservedEncoding, which no mask
covers. A reserved source code raises Operation.InvalidOpcode or reads an undefined value, with which the instruction
completes or faults as with any other; which of the two is not determined (log 30). That a conversion to an integer with a
literal destination, where U2 also allows an invalid opcode, looks at its source first is the model's choice (log 80, DESIGN
CHOICE). -/
def Obligations.ReservedOperandsFault : Prop :=
  ∀ (s : State) (x y : FSrc) (z : Src) (d : FDst) (e : Dst),
    let faults := fun i : Instr => exec i s = takeFault .fpReservedEncoding s.ip s.ip s
    let opcode := fun i : Instr => exec i s = takeFault .invalidOpcode s.ip s.ip s
    let undefined := fun (f : FpFormat) (i : Instr) => opcode i ∨ faults i ∨
      ∃ bits exc ast, (Masked s exc → Gives (exec i s) (FpWrites s f d bits { withFlags s.ac exc with ast := ast })) ∧
        Traps s exc (exec i s)
    let coded := fun (f : FpFormat) (u : FSrc) => SourceStarts f u ∨ ReservedCode u
    (∀ row ∈ fpTwoSourceRows, TargetReady row.1 d →
      (SourceStarts row.1 x → SourceStarts row.1 y → BadEncoding s row.1 x ∨ BadEncoding s row.1 y →
        faults (row.2 x y d)) ∧
      (coded row.1 x → coded row.1 y → ReservedCode x ∨ ReservedCode y → undefined row.1 (row.2 x y d))) ∧
    (∀ row ∈ fpOneSourceRows, TargetReady row.1 d →
      (SourceStarts row.1 x → BadEncoding s row.1 x → faults (row.2 x d)) ∧
      (ReservedCode x → undefined row.1 (row.2 x d))) ∧
    (∀ row ∈ [(FpFormat.real, Instr.scaler z y d), (.long, .scalerl z y d)], TargetReady row.1 d →
      (SourceStarts row.1 y → BadEncoding s row.1 y → faults row.2) ∧ (ReservedCode y → undefined row.1 row.2)) ∧
    (∀ row ∈ fpCompareRows,
      (SourceStarts row.1 x → SourceStarts row.1 y → BadEncoding s row.1 x ∨ BadEncoding s row.1 y →
        faults (row.2.2 x y)) ∧
      (coded row.1 x → coded row.1 y → ReservedCode x ∨ ReservedCode y →
        opcode (row.2.2 x y) ∨ faults (row.2.2 x y) ∨ ∃ c exc,
          (Masked s exc → Gives (exec (row.2.2 x y) s)
            (Writes s 0#5 [] { withFlags s.ac exc with cc := c } 4#32)) ∧ Traps s exc (exec (row.2.2 x y) s))) ∧
    (∀ i ∈ [Instr.classr x, .classrl x], ReservedCode x →
      opcode i ∨ ∃ v : BitVec 4, Gives (exec i s) (Writes s 0#5 [] { s.ac with ast := v } 4#32)) ∧
    ∀ conv ∈ fpToIntRows, (∀ r : Reg, e = .reg r → r.toNat % 2 = 0) →
      (SourceStarts .real x → BadEncoding s .real x → faults (conv x e)) ∧
      (ReservedCode x → opcode (conv x e) ∨ faults (conv x e) ∨
        ∃ r ws, ws.length ≤ 2 ∧ DeliversInteger s r ws (exec (conv x e) s))

/-- R140, U2: a literal in the destination field of a REG instruction, or a reserved floating-point destination, raises
Operation.InvalidOpcode, or puts an undefined value into some one register or floating-point register and changes nothing else
but the flags, the control word or the word of memory that the instruction's own effect gives; which of the two is not
determined, and the instruction completes in the second case, or takes the fault of its own result (log 31); of a reserved
floating-point destination, the result whose exceptions count is rounded to the instruction's own format (the model's choice,
log 87). With a zero divisor or a bad access as well, either fault is taken (log 80). -/
def Obligations.ReservedDestinations : Prop :=
  ∀ (s : State) (x y : Src) (n : BitVec 5),
    let opcode := fun i : Instr => exec i s = takeFault .invalidOpcode s.ip s.ip s
    let outcome := fun (i : Instr) (P : State → Prop) => opcode i ∨ Gives (exec i s) P
    let one := fun (i : Instr) => outcome i fun t => ∃ r v, Writes s r [v] s.ac 4#32 t
    let withCode := fun (i : Instr) => outcome i fun t => ∃ r v c, Writes s r [v] { s.ac with cc := c } 4#32 t
    let integer := fun (i : Instr) (fits : Prop) => opcode i ∨ ∃ r v, IntegerOutcome s r v fits (exec i s)
    let merged := fun mask new old : Word => (new &&& mask) ||| (old &&& ~~~mask)
    let fits := fun i : Int => -(2 ^ 31 : Int) ≤ i ∧ i < 2 ^ 31
    let new := merged (srcVal s y) (n.setWidth 32) s.pctl
    let changed := fun t : State => ∃ r v, Writes s r [v] s.ac 4#32 { t with pctl := s.pctl, proc := s.proc } ∧
      t.pctl = new ∧ (new.extractLsb' 13 2 = s.pctl.extractLsb' 13 2 → t.proc = s.proc)
    let a := srcVal s x &&& 0xFFFFFFFC#32
    let stores := fun (i : Instr) (w : Word) => outcome i fun t => ∃ r v, WritesGroup s r [v] t ∧
      t.Holds a (bytesOfWord w) ∧ State.SameOutside a 4 s t ∧ t.ip = s.ip + 4#32 ∧ t.ac = s.ac ∧ t.fps = s.fps ∧
      SameSpecial s t
    (∀ row ∈ plainRows, one (row.1 x y (.lit n))) ∧
    (∀ i ∈ [Instr.mov x (.lit n), .not x (.lit n), .modify x y (.lit n), .extract x y (.lit n), .alterbit x y (.lit n),
        .emul x y (.lit n), .ldtime (.lit n)], one i) ∧
    (∀ i ∈ [Instr.addc x y (.lit n), .subc x y (.lit n), .cmpinco x y (.lit n), .cmpinci x y (.lit n),
        .cmpdeco x y (.lit n), .cmpdeci x y (.lit n), .scanbit x (.lit n), .spanbit x (.lit n), .dmovt x (.lit n),
        .daddc x y (.lit n), .dsubc x y (.lit n), .synld x (.lit n)], withCode i) ∧
    (srcVal s x ≠ 0#32 →
      (∀ i ∈ [Instr.divo x y (.lit n), .remo x y (.lit n), .modi x y (.lit n)], one i) ∧
      (∀ i ∈ [Instr.divi x y (.lit n), .remi x y (.lit n)],
        integer i (¬ ((srcVal s y).toInt = -2 ^ 31 ∧ (srcVal s x).toInt = -1))) ∧
      (∀ v : BitVec 5, one (.ediv x (.lit v) (.lit n))) ∧
      ∀ q : Reg, q.toNat % 2 = 0 → one (.ediv x (.reg q) (.lit n))) ∧
    (srcVal s x = 0#32 → ∀ v : BitVec 5, ∀ i ∈ [Instr.divo x y (.lit n), .divi x y (.lit n), .remo x y (.lit n),
      .remi x y (.lit n), .modi x y (.lit n), .ediv x (.lit v) (.lit n)],
        opcode i ∨ exec i s = takeFault .zeroDivide s.ip s.ip s) ∧
    (∀ v : BitVec 5, ∀ i ∈ [Instr.movl (.lit v) (.lit n), .movt (.lit v) (.lit n), .movq (.lit v) (.lit n)], one i) ∧
    (∀ q : Reg, (q.toNat % 2 = 0 → one (.movl (.reg q) (.lit n))) ∧
      (q.toNat % 4 = 0 → one (.movt (.reg q) (.lit n)) ∧ one (.movq (.reg q) (.lit n)))) ∧
    (∀ row ∈ integerRows, integer (row.1 x y (.lit n)) (fits (row.2 (srcVal s x).toInt (srcVal s y).toInt))) ∧
    integer (.shli x y (.lit n)) (fits ((srcVal s y).toInt * 2 ^ min (srcVal s x).toNat 32)) ∧
    (∃ ac : ArithControls, ac.toWord = merged (srcVal s x) (srcVal s y) s.ac.toWord ∧
      outcome (.modac x y (.lit n)) fun t => ∃ r v, Writes s r [v] ac 4#32 t) ∧
    (outcome (.modtc x y (.lit n)) fun t => ∃ r v, Writes s r [v] s.ac 4#32 { t with tctl := s.tctl } ∧
      t.tctl = merged (srcVal s x &&& 0x00FF00FF#32) (srcVal s y) s.tctl) ∧
    (srcVal s y = 0#32 → one (.modpc x y (.lit n))) ∧
    (srcVal s y ≠ 0#32 → s.supervisor = true →
      ((s.pctl.extractLsb' 16 5).toNat ≤ (new.extractLsb' 16 5).toNat → outcome (.modpc x y (.lit n)) changed) ∧
      ((new.extractLsb' 16 5).toNat < (s.pctl.extractLsb' 16 5).toNat → opcode (.modpc x y (.lit n)) ∨
        ∃ u, changed u ∧ exec (.modpc x y (.lit n)) s = thenCheckPending u)) ∧
    (srcVal s y ≠ 0#32 → s.supervisor = false →
      opcode (.modpc x y (.lit n)) ∨ exec (.modpc x y (.lit n)) s = takeFault .mismatch s.ip s.ip s) ∧
    (s.readable a 4 = true →
      stores (.atadd x y (.lit n)) (s.readWord a + srcVal s y) ∧
      stores (.atmod x y (.lit n)) (merged (srcVal s y) (n.setWidth 32) (s.readWord a))) ∧
    (s.readable a 4 = false → ∀ i ∈ [Instr.atadd x y (.lit n), .atmod x y (.lit n)],
      opcode i ∨ exec i s = takeFault .badAccess s.ip s.ip s) ∧
    ∀ (u v : FSrc) (c : BitVec 5),
      let lands := fun (i : Instr) (exc : FpExceptions) (P : State → Prop) =>
        opcode i ∨ ((Masked s exc → Gives (exec i s) P) ∧ Traps s exc (exec i s))
      let floats := fun (f : FpFormat) (i : Instr) (r : FpResult) =>
        let exc := deliveredExceptions f s.ac.rc r
        lands i exc (FpStrays s (withFlags s.ac exc))
      (∀ row ∈ fpBinaryRows, SourceReady s row.1 u → SourceReady s row.1 v →
        floats row.1 (row.2.1 u v (.reserved c)) (twoSourceResult s row.1 (row.2.2 s.serial s.ac.rc) u v)) ∧
      (∀ row ∈ fpUnaryRows, SourceReady s row.1 u →
        floats row.1 (row.2.1 u (.reserved c)) (oneSourceResult s row.1 (row.2.2 s.serial s.ac.rc) u)) ∧
      (∀ row ∈ [(FpFormat.real, Instr.remr u v (.reserved c)), (.long, .remrl u v (.reserved c))],
        SourceReady s row.1 u → SourceReady s row.1 v →
          let exc := deliveredExceptions row.1 s.ac.rc (twoSourceResult s row.1 (fpRem s.serial s.ac.rc) u v)
          lands row.2 exc fun t => ∃ ast, FpStrays s { withFlags s.ac exc with ast := ast } t) ∧
      (∀ row ∈ [(FpFormat.real, Instr.scaler x v (.reserved c)), (.long, .scalerl x v (.reserved c))],
        SourceReady s row.1 v → ∃ i : Int, (∀ q, x = .reg q → i = (s.readReg q).toInt) ∧
          floats row.1 row.2 (oneSourceResult s row.1 (fpScale i) v)) ∧
      (∀ row ∈ transUnaryRows, SourceReady s row.1 u →
        ∃ exc, lands (row.2 u (.reserved c)) exc (FpStrays s (withFlags s.ac exc))) ∧
      (∀ row ∈ transBinaryRows, SourceReady s row.1 u → SourceReady s row.1 v →
        ∃ exc, lands (row.2 u v (.reserved c)) exc (FpStrays s (withFlags s.ac exc))) ∧
      (SourceReady s .extended u → SourceReady s .extended v →
        ∀ i ∈ [Instr.cpysre u v (.reserved c), .cpyrsre u v (.reserved c)], outcome i (FpStrays s s.ac)) ∧
      (∀ row ∈ [(FpFormat.real, Instr.movr u (.reserved c)), (.long, .movrl u (.reserved c)),
          (.extended, .movre u (.reserved c))], SourceReady s row.1 u →
        if movesConvert row.1 u (.reserved c) then floats row.1 row.2 (oneSourceResult s row.1 (fun i => { num := i }) u)
        else outcome row.2 (FpStrays s s.ac)) ∧
      floats .real (.cvtir x (.reserved c)) { num := .ofInt (srcVal s x).toInt } ∧
      (∀ q : Reg, q.toNat % 2 = 0 → floats .real (.cvtilr (.reg q) (.reserved c))
        { num := .ofInt (s.readReg (q + 1#5) ++ s.readReg q).toInt }) ∧
      (∀ w : BitVec 5, floats .real (.cvtilr (.lit w) (.reserved c)) { num := .ofInt w.toNat }) ∧
      (SourceReady s .real u → ∀ conv ∈ fpToIntRows,
        opcode (conv u (.lit n)) ∨ ∃ r w, DeliversInteger s r [w] (exec (conv u (.lit n)) s))

/-- R428, R429, R435 to R445: the special cases of the operations: infinities of opposite signs, zero times infinity, zero by
zero, infinity by infinity and the square root of a negative number are invalid and give a quiet NaN; a finite number by
zero is an infinity with zero-divide; a remainder by zero is either invalid with a quiet NaN, or a zero-divide with an infinity
(R443 does not say which, log 42); a NaN operand is propagated, made quiet, the one with the larger significand of two, and only
a signaling one is invalid. -/
def Obligations.SpecialOperands : Prop :=
  ∀ (k : Nat) (rc : BitVec 2) (a b : Bool) (m : Nat) (e : Int) (x : FpNum),
    let bad := fun r : FpResult => r.exc = { invalid := true } ∧ ∃ n sig, r.num = .nan n sig ∧ sig.getLsbD 62 = true
    bad (fpAdd k rc (.inf a) (.inf !a)) ∧ bad (fpSub k rc (.inf a) (.inf a)) ∧ bad (fpMul k rc (.zero a) (.inf b)) ∧
    bad (fpMul k rc (.inf a) (.zero b)) ∧ bad (fpDiv k rc (.zero a) (.zero b)) ∧ bad (fpDiv k rc (.inf a) (.inf b)) ∧
    bad (fpSqrt k rc (.fin true m e)) ∧ bad (fpSqrt k rc (.inf true)) ∧ bad (fpRem k rc x (.inf b)) ∧
    fpDiv k rc (.zero a) (.fin b m e) = { num := .inf (a != b), exc := { zeroDivide := true } } ∧
    (bad (fpRem k rc (.zero a) x) ∨
      ((fpRem k rc (.zero a) x).exc = { zeroDivide := true } ∧ ∃ n, (fpRem k rc (.zero a) x).num = .inf n)) ∧
    fpSqrt k rc (.zero true) = { num := .zero true } ∧
    ∀ (u v : FpOperand) (n p : Bool) (sig tau : BitVec 64), u.num = .nan n sig →
      ((nanResult k u v).exc.invalid = (u.cls == .signalingNaN || v.cls == .signalingNaN)) ∧
      (v.num = .nan p tau → tau.toNat < sig.toNat →
        (nanResult k u v).num = .nan n (sig ||| 0x4000000000000000#64) ∧
        (nanResult k v u).num = .nan n (sig ||| 0x4000000000000000#64)) ∧
      ((∀ q r, v.num ≠ .nan q r) → (nanResult k u v).num = .nan n (sig ||| 0x4000000000000000#64))

/-- R427, R430 to R434: with every exception masked, a move completes: within one format it copies its source's bits, and no
flag changes; between formats it delivers the source's number rounded once to the destination's format, or the propagated NaN,
with the flags of that. Within one format no mask matters. `cpysre` and `cpyrsre` complete under any masks: they give the first
source the sign, or the opposite sign, of the second, and set no flag. The sources are those SourceReady admits: no reserved
encoding, and a denormalized number in the normalizing mode only (R428, log 47). -/
def Obligations.FloatingPointMoves : Prop :=
  ∀ (s : State) (x y : FSrc) (d : FDst),
    (∀ row ∈ [(FpFormat.real, Instr.movr x d), (.long, .movrl x d), (.extended, .movre x d)],
      SourceReady s row.1 x → TargetReady row.1 d →
        let r := oneSourceResult s row.1 (fun n => { num := n }) x
        (movesConvert row.1 x d = false →
          Gives (exec row.2 s) (FpWrites s row.1 d (sourceBits s row.1 x) s.ac)) ∧
        (AllMasked s.ac → movesConvert row.1 x d = true →
          Gives (exec row.2 s) (FpWrites s row.1 d (deliveredBits (targetFormat row.1 d) s.ac.rc r)
            (withFlags s.ac (deliveredExceptions (targetFormat row.1 d) s.ac.rc r))))) ∧
    (SourceReady s .extended x → SourceReady s .extended y → TargetReady .extended d →
      Gives (exec (.cpysre x y d) s) (FpWrites s .extended d
        (BitVec.ofBool (sourceOperand s .extended y).neg ++ (sourceBits s .extended x).extractLsb' 0 79) s.ac) ∧
      Gives (exec (.cpyrsre x y d) s) (FpWrites s .extended d
        (BitVec.ofBool (!(sourceOperand s .extended y).neg) ++ (sourceBits s .extended x).extractLsb' 0 79) s.ac))

/-- R467 to R472: a comparison leaves 100, 010 or 001 in the condition code by the order of its operands, the two zeros being
equal, and 000 with a NaN; a signaling NaN, and any NaN in the ordered forms, sets the invalid flag or traps; a
classification leaves the sign and the class of any operand in AC.as, and never faults. -/
def Obligations.ComparesAndClassifies : Prop :=
  ∀ (s : State) (x y : FSrc),
    (∀ row ∈ [(FpFormat.real, false, Instr.cmpr x y), (.long, false, .cmprl x y), (.real, true, .cmpor x y),
        (.long, true, .cmporl x y)],
      SourceReady s row.1 x → SourceReady s row.1 y →
        let a := sourceOperand s row.1 x
        let b := sourceOperand s row.1 y
        let invalid := if row.2.1 then a.isNaN || b.isNaN else a.cls == .signalingNaN || b.cls == .signalingNaN
        let gives := fun c : BitVec 3 => Gives (exec row.2.2 s) (Writes s 0#5 []
          { s.ac with cc := c, fif := s.ac.fif || invalid } 4#32)
        (invalid = true → s.ac.fim = false → exec row.2.2 s = takeFault .fpInvalid s.ip s.ip s) ∧
        ((invalid = true → s.ac.fim = true) →
          ((a.isNaN || b.isNaN) = true → gives 0b000) ∧
          (a.num.Finite → b.num.Finite →
            (a.num.value < b.num.value → gives 0b100) ∧ (a.num.value = b.num.value → gives 0b010) ∧
            (b.num.value < a.num.value → gives 0b001)) ∧
          (a.num = .inf true → b.num.Finite → gives 0b100) ∧ (a.num = .inf false → b.num.Finite → gives 0b001) ∧
          (a.num.Finite → b.num = .inf true → gives 0b001) ∧ (a.num.Finite → b.num = .inf false → gives 0b100) ∧
          (∀ n p, a.num = .inf n → b.num = .inf p →
            gives (if n = p then 0b010 else if n then 0b100 else 0b001)))) ∧
    ∀ row ∈ [(FpFormat.real, Instr.classr x), (.long, .classrl x)],
      (∀ c, x ≠ .reserved c) → (∀ r : Reg, x = .reg r → r.toNat % row.1.words = 0) →
        let a := sourceOperand s row.1 x
        let code : BitVec 3 := match a.cls with
          | .zero => 0b000 | .denormal => 0b001 | .normal => 0b010 | .infinity => 0b011 | .quietNaN => 0b100
          | .signalingNaN => 0b101 | .reserved => 0b110
        Gives (exec row.2 s) (Writes s 0#5 [] { s.ac with ast := BitVec.ofBool a.neg ++ code } 4#32)

/-- R473 to R478, R210, R504, D16: an integer converts to the nearest real its destination holds, a literal long integer being
extended with zeros (R138, log 71); a real converts to the
integer it rounds to, under AC.rc or toward zero, with inexact when that changes it, which traps with nothing written if
unmasked; an integer that does not fit is an integer overflow, with its low-order bits in the destination; of a NaN or an
infinity the destination holds some value (U27, log 44). -/
def Obligations.Conversions : Prop :=
  ∀ (s : State) (x : Src) (y : FSrc) (r : Reg) (d : FDst),
    (AllMasked s.ac → TargetReady .real d →
      let delivers := fun (i : Instr) (n : Int) =>
        let res : FpResult := { num := .ofInt n }
        Gives (exec i s) (FpWrites s .real d (deliveredBits (targetFormat .real d) s.ac.rc res)
          (withFlags s.ac (deliveredExceptions (targetFormat .real d) s.ac.rc res)))
      delivers (.cvtir x d) (srcVal s x).toInt ∧
      (∀ q : Reg, q.toNat % 2 = 0 →
        delivers (.cvtilr (.reg q) d) (s.readReg (q + 1#5) ++ s.readReg q).toInt) ∧
      ∀ v : BitVec 5, delivers (.cvtilr (.lit v) d) v.toNat) ∧
    (SourceReady s .real y →
      let a := (sourceOperand s .real y).num
      ∀ row ∈ [(Instr.cvtri y (.reg r), 1, s.ac.rc), (.cvtzri y (.reg r), 1, 3#2), (.cvtril y (.reg r), 2, s.ac.rc),
          (.cvtzril y (.reg r), 2, 3#2)],
        r.toNat % row.2.1 = 0 →
          let words := fun n : Int => (List.range row.2.1).map fun k => (BitVec.ofInt 64 n).extractLsb' (32 * k) 32
          let limit : Int := 2 ^ (32 * row.2.1 - 1)
          let overflows := fun ws : List Word =>
            (s.ac.om = true → Gives (exec row.1 s) (Writes s r ws { s.ac with oflow := true } 4#32)) ∧
            (s.ac.om = false → ∃ t, Writes s r ws s.ac 4#32 t ∧
              exec row.1 s = takeFault .integerOverflow s.ip t.ip t)
          (a.Finite → ∃ n : Int, RoundsToInt row.2.2 a.value n ∧
            (-limit ≤ n → n < limit →
              (a.value = n → Gives (exec row.1 s) (Writes s r (words n) s.ac 4#32)) ∧
              (a.value ≠ n → s.ac.fxm = true →
                Gives (exec row.1 s) (Writes s r (words n) { s.ac with fxf := true } 4#32)) ∧
              (a.value ≠ n → s.ac.fxm = false → exec row.1 s = takeFault .fpInexact s.ip s.ip s)) ∧
            (¬ (-limit ≤ n ∧ n < limit) → overflows (words n))) ∧
          ((∃ b, a = .inf b) ∨ (∃ b v, a = .nan b v) → ∃ ws : List Word, ws.length = row.2.1 ∧ overflows ws))
end

