-- ==== Sys2Proof/Laws/Encoding.lean ====
section
/-! SUPPORT. The fields of the words the encoder writes, as the decoder reads them (R132 to R137). -/

namespace Sys2Proof

section Fields

variable (op : BitVec 8) (op12 : BitVec 12) (f g : BitVec 5) (x y z : Bool × BitVec 5) (m : Bool) (d22 : BitVec 22)
  (d11 : BitVec 11) (d12 : BitVec 12) (mode : BitVec 4) (scale : BitVec 3) (index : Reg)

@[simp] theorem ctrlWord_opcode : (ctrlWord op d22).extractLsb' 24 8 = op := by
  apply BitVec.eq_of_getLsbD_eq
  intro i hi
  simp only [ctrlWord, BitVec.getLsbD_extractLsb', BitVec.getLsbD_append, hi, decide_true, Bool.true_and]
  grind

@[simp] theorem ctrlWord_lowBits : (ctrlWord op d22).extractLsb' 0 2 = 0#2 := by
  apply BitVec.eq_of_getLsbD_eq
  intro i hi
  simp only [ctrlWord, BitVec.getLsbD_extractLsb', BitVec.getLsbD_append, hi, decide_true, Bool.true_and]
  grind

@[simp] theorem ctrlWord_disp : (ctrlWord op d22).extractLsb' 2 22 = d22 := by
  apply BitVec.eq_of_getLsbD_eq
  intro i hi
  simp only [ctrlWord, BitVec.getLsbD_extractLsb', BitVec.getLsbD_append, hi, decide_true, Bool.true_and]
  grind

@[simp] theorem cobrWord_opcode : (cobrWord op f g m d11).extractLsb' 24 8 = op := by
  apply BitVec.eq_of_getLsbD_eq
  intro i hi
  simp only [cobrWord, BitVec.getLsbD_extractLsb', BitVec.getLsbD_append, hi, decide_true, Bool.true_and]
  grind

@[simp] theorem cobrWord_field23 : (cobrWord op f g m d11).extractLsb' 19 5 = f := by
  apply BitVec.eq_of_getLsbD_eq
  intro i hi
  simp only [cobrWord, BitVec.getLsbD_extractLsb', BitVec.getLsbD_append, hi, decide_true, Bool.true_and]
  grind

@[simp] theorem cobrWord_field18 : (cobrWord op f g m d11).extractLsb' 14 5 = g := by
  apply BitVec.eq_of_getLsbD_eq
  intro i hi
  simp only [cobrWord, BitVec.getLsbD_extractLsb', BitVec.getLsbD_append, hi, decide_true, Bool.true_and]
  grind

@[simp] theorem cobrWord_mode : (cobrWord op f g m d11).extractLsb' 13 1 = BitVec.ofBool m := by
  apply BitVec.eq_of_getLsbD_eq
  intro i hi
  simp only [cobrWord, BitVec.getLsbD_extractLsb', BitVec.getLsbD_append, hi, decide_true, Bool.true_and]
  grind

@[simp] theorem cobrWord_lowBits : (cobrWord op f g m d11).extractLsb' 0 2 = 0#2 := by
  apply BitVec.eq_of_getLsbD_eq
  intro i hi
  simp only [cobrWord, BitVec.getLsbD_extractLsb', BitVec.getLsbD_append, hi, decide_true, Bool.true_and]
  grind

@[simp] theorem cobrWord_disp : (cobrWord op f g m d11).extractLsb' 2 11 = d11 := by
  apply BitVec.eq_of_getLsbD_eq
  intro i hi
  simp only [cobrWord, BitVec.getLsbD_extractLsb', BitVec.getLsbD_append, hi, decide_true, Bool.true_and]
  grind

@[simp] theorem regWord_opcode : (regWord op12 z y x).extractLsb' 24 8 = op12.extractLsb' 4 8 := by
  apply BitVec.eq_of_getLsbD_eq
  intro i hi
  simp only [regWord, BitVec.getLsbD_extractLsb', BitVec.getLsbD_append, hi, decide_true, Bool.true_and]
  grind

@[simp] theorem regWord_field23 : (regWord op12 z y x).extractLsb' 19 5 = z.2 := by
  apply BitVec.eq_of_getLsbD_eq
  intro i hi
  simp only [regWord, BitVec.getLsbD_extractLsb', BitVec.getLsbD_append, hi, decide_true, Bool.true_and]
  grind

@[simp] theorem regWord_field18 : (regWord op12 z y x).extractLsb' 14 5 = y.2 := by
  apply BitVec.eq_of_getLsbD_eq
  intro i hi
  simp only [regWord, BitVec.getLsbD_extractLsb', BitVec.getLsbD_append, hi, decide_true, Bool.true_and]
  grind

@[simp] theorem regWord_m3 : (regWord op12 z y x).extractLsb' 13 1 = BitVec.ofBool z.1 := by
  apply BitVec.eq_of_getLsbD_eq
  intro i hi
  simp only [regWord, BitVec.getLsbD_extractLsb', BitVec.getLsbD_append, hi, decide_true, Bool.true_and]
  grind

@[simp] theorem regWord_m2 : (regWord op12 z y x).extractLsb' 12 1 = BitVec.ofBool y.1 := by
  apply BitVec.eq_of_getLsbD_eq
  intro i hi
  simp only [regWord, BitVec.getLsbD_extractLsb', BitVec.getLsbD_append, hi, decide_true, Bool.true_and]
  grind

@[simp] theorem regWord_m1 : (regWord op12 z y x).extractLsb' 11 1 = BitVec.ofBool x.1 := by
  apply BitVec.eq_of_getLsbD_eq
  intro i hi
  simp only [regWord, BitVec.getLsbD_extractLsb', BitVec.getLsbD_append, hi, decide_true, Bool.true_and]
  grind

@[simp] theorem regWord_opcodeLow : (regWord op12 z y x).extractLsb' 7 4 = op12.extractLsb' 0 4 := by
  apply BitVec.eq_of_getLsbD_eq
  intro i hi
  simp only [regWord, BitVec.getLsbD_extractLsb', BitVec.getLsbD_append, hi, decide_true, Bool.true_and]
  grind

@[simp] theorem regWord_sfrBits : (regWord op12 z y x).extractLsb' 5 2 = 0#2 := by
  apply BitVec.eq_of_getLsbD_eq
  intro i hi
  simp only [regWord, BitVec.getLsbD_extractLsb', BitVec.getLsbD_append, hi, decide_true, Bool.true_and]
  grind

@[simp] theorem regWord_field4 : (regWord op12 z y x).extractLsb' 0 5 = x.2 := by
  apply BitVec.eq_of_getLsbD_eq
  intro i hi
  simp only [regWord, BitVec.getLsbD_extractLsb', BitVec.getLsbD_append, hi, decide_true, Bool.true_and]
  grind

@[simp] theorem memaWord_opcode : (memaWord op f g m d12).extractLsb' 24 8 = op := by
  apply BitVec.eq_of_getLsbD_eq
  intro i hi
  simp only [memaWord, BitVec.getLsbD_extractLsb', BitVec.getLsbD_append, hi, decide_true, Bool.true_and]
  grind

@[simp] theorem memaWord_field23 : (memaWord op f g m d12).extractLsb' 19 5 = f := by
  apply BitVec.eq_of_getLsbD_eq
  intro i hi
  simp only [memaWord, BitVec.getLsbD_extractLsb', BitVec.getLsbD_append, hi, decide_true, Bool.true_and]
  grind

@[simp] theorem memaWord_field18 : (memaWord op f g m d12).extractLsb' 14 5 = g := by
  apply BitVec.eq_of_getLsbD_eq
  intro i hi
  simp only [memaWord, BitVec.getLsbD_extractLsb', BitVec.getLsbD_append, hi, decide_true, Bool.true_and]
  grind

@[simp] theorem memaWord_mode : (memaWord op f g m d12).extractLsb' 13 1 = BitVec.ofBool m := by
  apply BitVec.eq_of_getLsbD_eq
  intro i hi
  simp only [memaWord, BitVec.getLsbD_extractLsb', BitVec.getLsbD_append, hi, decide_true, Bool.true_and]
  grind

@[simp] theorem memaWord_form : (memaWord op f g m d12).extractLsb' 12 1 = 0#1 := by
  apply BitVec.eq_of_getLsbD_eq
  intro i hi
  simp only [memaWord, BitVec.getLsbD_extractLsb', BitVec.getLsbD_append, hi, decide_true, Bool.true_and]
  grind

@[simp] theorem memaWord_offset : (memaWord op f g m d12).extractLsb' 0 12 = d12 := by
  apply BitVec.eq_of_getLsbD_eq
  intro i hi
  simp only [memaWord, BitVec.getLsbD_extractLsb', BitVec.getLsbD_append, hi, decide_true, Bool.true_and]
  grind

@[simp] theorem membWord_opcode : (membWord op f g mode scale index).extractLsb' 24 8 = op := by
  apply BitVec.eq_of_getLsbD_eq
  intro i hi
  simp only [membWord, BitVec.getLsbD_extractLsb', BitVec.getLsbD_append, hi, decide_true, Bool.true_and]
  grind

@[simp] theorem membWord_field23 : (membWord op f g mode scale index).extractLsb' 19 5 = f := by
  apply BitVec.eq_of_getLsbD_eq
  intro i hi
  simp only [membWord, BitVec.getLsbD_extractLsb', BitVec.getLsbD_append, hi, decide_true, Bool.true_and]
  grind

@[simp] theorem membWord_field18 : (membWord op f g mode scale index).extractLsb' 14 5 = g := by
  apply BitVec.eq_of_getLsbD_eq
  intro i hi
  simp only [membWord, BitVec.getLsbD_extractLsb', BitVec.getLsbD_append, hi, decide_true, Bool.true_and]
  grind

@[simp] theorem membWord_mode : (membWord op f g mode scale index).extractLsb' 10 4 = mode := by
  apply BitVec.eq_of_getLsbD_eq
  intro i hi
  simp only [membWord, BitVec.getLsbD_extractLsb', BitVec.getLsbD_append, hi, decide_true, Bool.true_and]
  grind

@[simp] theorem membWord_form : (membWord op f g mode scale index).extractLsb' 12 1 = mode.extractLsb' 2 1 := by
  apply BitVec.eq_of_getLsbD_eq
  intro i hi
  simp only [membWord, BitVec.getLsbD_extractLsb', BitVec.getLsbD_append, hi, decide_true, Bool.true_and]
  grind

@[simp] theorem membWord_scale : (membWord op f g mode scale index).extractLsb' 7 3 = scale := by
  apply BitVec.eq_of_getLsbD_eq
  intro i hi
  simp only [membWord, BitVec.getLsbD_extractLsb', BitVec.getLsbD_append, hi, decide_true, Bool.true_and]
  grind

@[simp] theorem membWord_sfrBits : (membWord op f g mode scale index).extractLsb' 5 2 = 0#2 := by
  apply BitVec.eq_of_getLsbD_eq
  intro i hi
  simp only [membWord, BitVec.getLsbD_extractLsb', BitVec.getLsbD_append, hi, decide_true, Bool.true_and]
  grind

@[simp] theorem membWord_field4 : (membWord op f g mode scale index).extractLsb' 0 5 = index := by
  apply BitVec.eq_of_getLsbD_eq
  intro i hi
  simp only [membWord, BitVec.getLsbD_extractLsb', BitVec.getLsbD_append, hi, decide_true, Bool.true_and]
  grind

end Fields

/-! ### The fields under the decoder's names -/

/-- One bit, from the field that is that bit. -/
theorem bitAt_eq {w : Word} {k : Nat} {b : Bool} (h : w.extractLsb' k 1 = BitVec.ofBool b) : bitAt w k = b := by
  have := congrArg (fun v => v.getLsbD 0) h
  simpa [bitAt] using this

section Names

variable (op : BitVec 8) (op12 : BitVec 12) (f g : BitVec 5) (x y z : Bool × BitVec 5) (m : Bool) (d22 : BitVec 22)
  (d11 : BitVec 11) (d12 : BitVec 12) (mode : BitVec 4) (scale : BitVec 3) (index : Reg)

@[simp] theorem opcodeOf_ctrlWord : opcodeOf (ctrlWord op d22) = op.toNat := by simp [opcodeOf]
@[simp] theorem opcodeOf_cobrWord : opcodeOf (cobrWord op f g m d11) = op.toNat := by simp [opcodeOf]
@[simp] theorem opcodeOf_regWord : opcodeOf (regWord op12 z y x) = (op12.extractLsb' 4 8).toNat := by simp [opcodeOf]
@[simp] theorem opcodeOf_memaWord : opcodeOf (memaWord op f g m d12) = op.toNat := by simp [opcodeOf]
@[simp] theorem opcodeOf_membWord : opcodeOf (membWord op f g mode scale index) = op.toNat := by simp [opcodeOf]

@[simp] theorem regOpcodeOf_regWord : regOpcodeOf (regWord op12 z y x) = op12.toNat := by
  unfold regOpcodeOf
  rw [regWord_opcode, regWord_opcodeLow]
  congr 1
  apply BitVec.eq_of_getLsbD_eq
  intro i hi
  simp only [BitVec.getLsbD_extractLsb', BitVec.getLsbD_append]
  grind

@[simp] theorem bitAt_cobrWord : bitAt (cobrWord op f g m d11) 13 = m := bitAt_eq (by simp)
@[simp] theorem bitAt_regWord_m1 : bitAt (regWord op12 z y x) 11 = x.1 := bitAt_eq (by simp)
@[simp] theorem bitAt_regWord_m2 : bitAt (regWord op12 z y x) 12 = y.1 := bitAt_eq (by simp)
@[simp] theorem bitAt_regWord_m3 : bitAt (regWord op12 z y x) 13 = z.1 := bitAt_eq (by simp)
@[simp] theorem bitAt_memaWord : bitAt (memaWord op f g m d12) 13 = m := bitAt_eq (by simp)
@[simp] theorem bitAt_memaWord_form : bitAt (memaWord op f g m d12) 12 = false := bitAt_eq (by simp)
@[simp] theorem bitAt_membWord_form : bitAt (membWord op f g mode scale index) 12 = mode.getLsbD 2 :=
  bitAt_eq (by rw [membWord_form]; revert mode; decide)

end Names

/-- An opcode below 0x80 has no displacement word (R134). -/
theorem hasDisplacement_below {w : Word} (h : opcodeOf w < 0x80) : hasDisplacement w = false := by
  simp [hasDisplacement, Nat.not_le.2 h]

/-- A MEMA word has no displacement word (R134). -/
@[simp] theorem hasDisplacement_memaWord (op : BitVec 8) (f g : BitVec 5) (m : Bool) (d : BitVec 12) :
    hasDisplacement (memaWord op f g m d) = false := by
  simp [hasDisplacement]

/-- A MEMB word has one in the modes with a displacement (R134). -/
theorem hasDisplacement_membWord {op : BitVec 8} (h : 0x80 ≤ op.toNat) (f g : BitVec 5) (mode : BitVec 4)
    (scale : BitVec 3) (index : Reg) :
    hasDisplacement (membWord op f g mode scale index) =
      (mode.getLsbD 2 && (mode.toNat == 5 || decide (12 ≤ mode.toNat))) := by
  simp [hasDisplacement, h]

end Sys2Proof
end

