-- ==== Sys2Proof/Laws/Memory.lean ====
section
/-! SUPPORT. The laws of memory: reads after writes, and the canonical form that every operation keeps. -/

namespace Sys2Proof.Machine

section Keys

variable {α : Type}

@[simp] theorem keyGet_keyPut (k k' : Nat) (v : α) (l : List (Nat × α)) :
    keyGet k' (keyPut k v l) = if k' = k then some v else keyGet k' l := by
  induction l with
  | nil => simp [keyPut, keyGet]
  | cons c l ih =>
    obtain ⟨j, w⟩ := c
    by_cases h1 : k < j
    · simp [keyPut, h1, keyGet]
    · by_cases h2 : k = j
      · subst h2; simp only [keyPut, h1, if_false, if_true, keyGet]; split <;> simp_all
      · simp only [keyPut, h1, h2, if_false, keyGet, ih]
        by_cases h3 : k' = j
        · have : k' ≠ k := by omega
          simp [h3, show j ≠ k by omega]
        · simp [h3]

@[simp] theorem keyGet_keyDrop (k k' : Nat) (l : List (Nat × α)) :
    keyGet k' (keyDrop k l) = if k' = k then none else keyGet k' l := by
  induction l with
  | nil => simp [keyDrop, keyGet]
  | cons c l ih =>
    obtain ⟨j, w⟩ := c
    by_cases h : k = j
    · subst h; simp only [keyDrop, if_true, ih, keyGet]; split <;> simp_all
    · simp only [keyDrop, h, if_false, keyGet, ih]
      by_cases h3 : k' = j
      · simp [h3, show j ≠ k by omega]
      · simp [h3]

theorem keysRiseFrom_mono {lo lo' : Nat} (h : lo' ≤ lo) : ∀ {l : List (Nat × α)},
    keysRiseFrom lo l = true → keysRiseFrom lo' l = true
  | [], _ => rfl
  | (k, _) :: l, hl => by
    simp only [keysRiseFrom, Bool.and_eq_true, decide_eq_true_eq] at hl ⊢
    exact ⟨by omega, hl.2⟩

theorem keysRiseFrom_keyPut (k : Nat) (v : α) : ∀ (lo : Nat) (l : List (Nat × α)), lo ≤ k →
    keysRiseFrom lo l = true → keysRiseFrom lo (keyPut k v l) = true
  | lo, [], hk, _ => by simp [keyPut, keysRiseFrom, hk]
  | lo, (j, w) :: l, hk, hl => by
    simp only [keysRiseFrom, Bool.and_eq_true, decide_eq_true_eq] at hl
    unfold keyPut
    split
    · rename_i h; simp only [keysRiseFrom, Bool.and_eq_true, decide_eq_true_eq]; exact ⟨hk, by omega, hl.2⟩
    · split
      · rename_i h; subst h; simp only [keysRiseFrom, Bool.and_eq_true, decide_eq_true_eq]; exact ⟨hk, hl.2⟩
      · simp only [keysRiseFrom, Bool.and_eq_true, decide_eq_true_eq]
        exact ⟨hl.1, keysRiseFrom_keyPut k v (j + 1) l (by omega) hl.2⟩

theorem keysRiseFrom_keyDrop (k : Nat) : ∀ (lo : Nat) (l : List (Nat × α)),
    keysRiseFrom lo l = true → keysRiseFrom lo (keyDrop k l) = true
  | _, [], _ => rfl
  | lo, (j, w) :: l, hl => by
    simp only [keysRiseFrom, Bool.and_eq_true, decide_eq_true_eq] at hl
    unfold keyDrop
    split
    · exact keysRiseFrom_mono (by omega) (keysRiseFrom_keyDrop k (j + 1) l hl.2)
    · simp only [keysRiseFrom, Bool.and_eq_true, decide_eq_true_eq]
      exact ⟨hl.1, keysRiseFrom_keyDrop k (j + 1) l hl.2⟩

theorem mem_keyPut {k : Nat} {v : α} {c : Nat × α} : ∀ {l : List (Nat × α)}, c ∈ keyPut k v l → c = (k, v) ∨ c ∈ l
  | [], h => by simp [keyPut] at h; exact .inl h
  | (j, w) :: l, h => by
    unfold keyPut at h
    split at h
    · simpa using h
    · split at h
      · rcases List.mem_cons.1 h with h | h
        · exact .inl h
        · exact .inr (List.mem_cons_of_mem _ h)
      · rcases List.mem_cons.1 h with h | h
        · exact .inr (h ▸ List.mem_cons_self)
        · exact (mem_keyPut h).imp id (List.mem_cons_of_mem _)

theorem mem_keyDrop {k : Nat} {c : Nat × α} : ∀ {l : List (Nat × α)}, c ∈ keyDrop k l → c ∈ l ∧ c.1 ≠ k
  | (j, w) :: l, h => by
    unfold keyDrop at h
    split at h
    · exact ⟨List.mem_cons_of_mem _ (mem_keyDrop h).1, (mem_keyDrop h).2⟩
    · rcases List.mem_cons.1 h with h | h
      · subst h; exact ⟨List.mem_cons_self, fun e => by simp_all⟩
      · exact ⟨List.mem_cons_of_mem _ (mem_keyDrop h).1, (mem_keyDrop h).2⟩

end Keys

/-! ### Reads after writes -/

/-- A byte read after a write: the byte written at its address, the old byte elsewhere. -/
theorem Memory.read_write (m : Memory) (a a' : Nat) (b : Byte) :
    (m.write a b).read a' = if a' = a then b else m.read a' := by
  by_cases h : a' = a
  · subst h
    by_cases hb : b = unlistedByte <;> simp [Memory.write, Memory.read, hb]
  · by_cases hb : b = unlistedByte <;> simp [Memory.write, Memory.read, hb, h]

/-- A byte read after an address was left free. -/
theorem Memory.read_writeFree (m : Memory) (a a' : Nat) (f : FreeByte) :
    (m.writeFree a f).read a' = if a' = a then f.val else m.read a' := by
  by_cases h : a' = a
  · subst h; simp [Memory.writeFree, Memory.read]
  · simp [Memory.writeFree, Memory.read, h]

/-! ### The canonical form -/

theorem Memory.wf_iff (m : Memory) : m.wf = true ↔
    keysRiseFrom 0 m.cells = true ∧ keysRiseFrom 0 m.holes = true ∧
      (∀ c ∈ m.cells, c.1 < 2 ^ 32 ∧ c.2 ≠ unlistedByte ∧ keyGet c.1 m.holes = none) ∧
      ∀ h ∈ m.holes, h.1 < 2 ^ 32 := by
  simp only [Memory.wf, Bool.and_eq_true, List.all_eq_true, decide_eq_true_eq, bne_iff_ne, Option.isNone_iff_eq_none,
    and_assoc]

theorem Memory.empty_wf : Memory.empty.wf = true := by decide

/-- Storing a byte keeps the canonical form. -/
theorem Memory.write_wf {m : Memory} (h : m.wf = true) {a : Nat} (ha : a < 2 ^ 32) (b : Byte) :
    (m.write a b).wf = true := by
  obtain ⟨hc, hh, hcells, hholes⟩ := (Memory.wf_iff m).1 h
  refine (Memory.wf_iff _).2 ⟨?_, keysRiseFrom_keyDrop a 0 _ hh, ?_, fun c hc => hholes c (mem_keyDrop hc).1⟩
  · by_cases hb : b = unlistedByte
    · simpa [Memory.write, hb] using keysRiseFrom_keyDrop a 0 _ hc
    · simpa [Memory.write, hb] using keysRiseFrom_keyPut a b 0 _ (Nat.zero_le _) hc
  · intro c hm
    by_cases hb : b = unlistedByte
    · simp only [Memory.write, hb, if_true] at hm ⊢
      obtain ⟨h1, h2, h3⟩ := hcells c (mem_keyDrop hm).1
      exact ⟨h1, h2, by simp [h3]⟩
    · simp only [Memory.write, hb, if_false] at hm ⊢
      rcases mem_keyPut hm with rfl | hm
      · exact ⟨ha, hb, by simp⟩
      · obtain ⟨h1, h2, h3⟩ := hcells c hm
        exact ⟨h1, h2, by simp [h3]⟩

/-- Leaving a byte free keeps the canonical form. -/
theorem Memory.writeFree_wf {m : Memory} (h : m.wf = true) {a : Nat} (ha : a < 2 ^ 32) (f : FreeByte) :
    (m.writeFree a f).wf = true := by
  obtain ⟨hc, hh, hcells, hholes⟩ := (Memory.wf_iff m).1 h
  refine (Memory.wf_iff _).2 ⟨keysRiseFrom_keyDrop a 0 _ hc, keysRiseFrom_keyPut a f 0 _ (Nat.zero_le _) hh, ?_, ?_⟩
  · intro c hm
    obtain ⟨hm, hne⟩ := mem_keyDrop hm
    obtain ⟨h1, h2, h3⟩ := hcells c hm
    exact ⟨h1, h2, by simp [Memory.writeFree, hne, h3]⟩
  · intro c hm
    rcases mem_keyPut hm with rfl | hm
    · exact ha
    · exact hholes c hm

end Sys2Proof.Machine
end

