-- ==== Sys2Proof/Laws/State.lean ====
section
/-! SUPPORT. What each small update of the state leaves in each field: one lemma a field. -/

namespace Sys2Proof.Machine

variable (s : State)

/-! `setReg` -/

@[simp] theorem State.setReg_ip (r : Reg) (v : Word) : (s.setReg r v).ip = s.ip := by unfold State.setReg; split <;> rfl
@[simp] theorem State.setReg_cached (r : Reg) (v : Word) : (s.setReg r v).cached = s.cached := by unfold State.setReg; split <;> rfl
@[simp] theorem State.setReg_fps (r : Reg) (v : Word) : (s.setReg r v).fps = s.fps := by unfold State.setReg; split <;> rfl
@[simp] theorem State.setReg_ac (r : Reg) (v : Word) : (s.setReg r v).ac = s.ac := by unfold State.setReg; split <;> rfl
@[simp] theorem State.setReg_pctl (r : Reg) (v : Word) : (s.setReg r v).pctl = s.pctl := by unfold State.setReg; split <;> rfl
@[simp] theorem State.setReg_tctl (r : Reg) (v : Word) : (s.setReg r v).tctl = s.tctl := by unfold State.setReg; split <;> rfl
@[simp] theorem State.setReg_proc (r : Reg) (v : Word) : (s.setReg r v).proc = s.proc := by unfold State.setReg; split <;> rfl
@[simp] theorem State.setReg_procControls (r : Reg) (v : Word) : (s.setReg r v).procControls = s.procControls := by unfold State.setReg; split <;> rfl
@[simp] theorem State.setReg_segTable (r : Reg) (v : Word) : (s.setReg r v).segTable = s.segTable := by unfold State.setReg; split <;> rfl
@[simp] theorem State.setReg_prcb (r : Reg) (v : Word) : (s.setReg r v).prcb = s.prcb := by unfold State.setReg; split <;> rfl
@[simp] theorem State.setReg_dispatchPort (r : Reg) (v : Word) : (s.setReg r v).dispatchPort = s.dispatchPort := by unfold State.setReg; split <;> rfl
@[simp] theorem State.setReg_intTable (r : Reg) (v : Word) : (s.setReg r v).intTable = s.intTable := by unfold State.setReg; split <;> rfl
@[simp] theorem State.setReg_intStack (r : Reg) (v : Word) : (s.setReg r v).intStack = s.intStack := by unfold State.setReg; split <;> rfl
@[simp] theorem State.setReg_region3 (r : Reg) (v : Word) : (s.setReg r v).region3 = s.region3 := by unfold State.setReg; split <;> rfl
@[simp] theorem State.setReg_sysProcTable (r : Reg) (v : Word) : (s.setReg r v).sysProcTable = s.sysProcTable := by unfold State.setReg; split <;> rfl
@[simp] theorem State.setReg_faultTable (r : Reg) (v : Word) : (s.setReg r v).faultTable = s.faultTable := by unfold State.setReg; split <;> rfl
@[simp] theorem State.setReg_icr (r : Reg) (v : Word) : (s.setReg r v).icr = s.icr := by unfold State.setReg; split <;> rfl
@[simp] theorem State.setReg_bp0 (r : Reg) (v : Word) : (s.setReg r v).bp0 = s.bp0 := by unfold State.setReg; split <;> rfl
@[simp] theorem State.setReg_bp1 (r : Reg) (v : Word) : (s.setReg r v).bp1 = s.bp1 := by unfold State.setReg; split <;> rfl
@[simp] theorem State.setReg_mem (r : Reg) (v : Word) : (s.setReg r v).mem = s.mem := by unfold State.setReg; split <;> rfl
@[simp] theorem State.setReg_memMap (r : Reg) (v : Word) : (s.setReg r v).memMap = s.memMap := by unfold State.setReg; split <;> rfl
@[simp] theorem State.setReg_stale (r : Reg) (v : Word) : (s.setReg r v).stale = s.stale := by unfold State.setReg; split <;> rfl
@[simp] theorem State.setReg_restarted (r : Reg) (v : Word) : (s.setReg r v).restarted = s.restarted := by unfold State.setReg; split <;> rfl
@[simp] theorem State.setReg_traced (r : Reg) (v : Word) : (s.setReg r v).traced = s.traced := by unfold State.setReg; split <;> rfl
@[simp] theorem State.setReg_env (r : Reg) (v : Word) : (s.setReg r v).env = s.env := by unfold State.setReg; split <;> rfl
@[simp] theorem State.setReg_serial (r : Reg) (v : Word) : (s.setReg r v).serial = s.serial := by unfold State.setReg; split <;> rfl

/-! `setLocal` -/

@[simp] theorem State.setLocal_ip (i : Fin 16) (x : Slot) : (s.setLocal i x).ip = s.ip := rfl
@[simp] theorem State.setLocal_globals (i : Fin 16) (x : Slot) : (s.setLocal i x).globals = s.globals := rfl
@[simp] theorem State.setLocal_locals (i : Fin 16) (x : Slot) : (s.setLocal i x).locals = s.locals.set i x := rfl
@[simp] theorem State.setLocal_cached (i : Fin 16) (x : Slot) : (s.setLocal i x).cached = s.cached := rfl
@[simp] theorem State.setLocal_fps (i : Fin 16) (x : Slot) : (s.setLocal i x).fps = s.fps := rfl
@[simp] theorem State.setLocal_ac (i : Fin 16) (x : Slot) : (s.setLocal i x).ac = s.ac := rfl
@[simp] theorem State.setLocal_pctl (i : Fin 16) (x : Slot) : (s.setLocal i x).pctl = s.pctl := rfl
@[simp] theorem State.setLocal_tctl (i : Fin 16) (x : Slot) : (s.setLocal i x).tctl = s.tctl := rfl
@[simp] theorem State.setLocal_proc (i : Fin 16) (x : Slot) : (s.setLocal i x).proc = s.proc := rfl
@[simp] theorem State.setLocal_procControls (i : Fin 16) (x : Slot) : (s.setLocal i x).procControls = s.procControls := rfl
@[simp] theorem State.setLocal_segTable (i : Fin 16) (x : Slot) : (s.setLocal i x).segTable = s.segTable := rfl
@[simp] theorem State.setLocal_prcb (i : Fin 16) (x : Slot) : (s.setLocal i x).prcb = s.prcb := rfl
@[simp] theorem State.setLocal_dispatchPort (i : Fin 16) (x : Slot) : (s.setLocal i x).dispatchPort = s.dispatchPort := rfl
@[simp] theorem State.setLocal_intTable (i : Fin 16) (x : Slot) : (s.setLocal i x).intTable = s.intTable := rfl
@[simp] theorem State.setLocal_intStack (i : Fin 16) (x : Slot) : (s.setLocal i x).intStack = s.intStack := rfl
@[simp] theorem State.setLocal_region3 (i : Fin 16) (x : Slot) : (s.setLocal i x).region3 = s.region3 := rfl
@[simp] theorem State.setLocal_sysProcTable (i : Fin 16) (x : Slot) : (s.setLocal i x).sysProcTable = s.sysProcTable := rfl
@[simp] theorem State.setLocal_faultTable (i : Fin 16) (x : Slot) : (s.setLocal i x).faultTable = s.faultTable := rfl
@[simp] theorem State.setLocal_icr (i : Fin 16) (x : Slot) : (s.setLocal i x).icr = s.icr := rfl
@[simp] theorem State.setLocal_bp0 (i : Fin 16) (x : Slot) : (s.setLocal i x).bp0 = s.bp0 := rfl
@[simp] theorem State.setLocal_bp1 (i : Fin 16) (x : Slot) : (s.setLocal i x).bp1 = s.bp1 := rfl
@[simp] theorem State.setLocal_mem (i : Fin 16) (x : Slot) : (s.setLocal i x).mem = s.mem := rfl
@[simp] theorem State.setLocal_memMap (i : Fin 16) (x : Slot) : (s.setLocal i x).memMap = s.memMap := rfl
@[simp] theorem State.setLocal_stale (i : Fin 16) (x : Slot) : (s.setLocal i x).stale = s.stale := rfl
@[simp] theorem State.setLocal_restarted (i : Fin 16) (x : Slot) : (s.setLocal i x).restarted = s.restarted := rfl
@[simp] theorem State.setLocal_traced (i : Fin 16) (x : Slot) : (s.setLocal i x).traced = s.traced := rfl
@[simp] theorem State.setLocal_env (i : Fin 16) (x : Slot) : (s.setLocal i x).env = s.env := rfl
@[simp] theorem State.setLocal_serial (i : Fin 16) (x : Slot) : (s.setLocal i x).serial = s.serial := rfl

/-! `setCc` -/

@[simp] theorem State.setCc_ip (c : BitVec 3) : (s.setCc c).ip = s.ip := rfl
@[simp] theorem State.setCc_globals (c : BitVec 3) : (s.setCc c).globals = s.globals := rfl
@[simp] theorem State.setCc_locals (c : BitVec 3) : (s.setCc c).locals = s.locals := rfl
@[simp] theorem State.setCc_cached (c : BitVec 3) : (s.setCc c).cached = s.cached := rfl
@[simp] theorem State.setCc_fps (c : BitVec 3) : (s.setCc c).fps = s.fps := rfl
@[simp] theorem State.setCc_ac (c : BitVec 3) : (s.setCc c).ac = { s.ac with cc := c } := rfl
@[simp] theorem State.setCc_pctl (c : BitVec 3) : (s.setCc c).pctl = s.pctl := rfl
@[simp] theorem State.setCc_tctl (c : BitVec 3) : (s.setCc c).tctl = s.tctl := rfl
@[simp] theorem State.setCc_proc (c : BitVec 3) : (s.setCc c).proc = s.proc := rfl
@[simp] theorem State.setCc_procControls (c : BitVec 3) : (s.setCc c).procControls = s.procControls := rfl
@[simp] theorem State.setCc_segTable (c : BitVec 3) : (s.setCc c).segTable = s.segTable := rfl
@[simp] theorem State.setCc_prcb (c : BitVec 3) : (s.setCc c).prcb = s.prcb := rfl
@[simp] theorem State.setCc_dispatchPort (c : BitVec 3) : (s.setCc c).dispatchPort = s.dispatchPort := rfl
@[simp] theorem State.setCc_intTable (c : BitVec 3) : (s.setCc c).intTable = s.intTable := rfl
@[simp] theorem State.setCc_intStack (c : BitVec 3) : (s.setCc c).intStack = s.intStack := rfl
@[simp] theorem State.setCc_region3 (c : BitVec 3) : (s.setCc c).region3 = s.region3 := rfl
@[simp] theorem State.setCc_sysProcTable (c : BitVec 3) : (s.setCc c).sysProcTable = s.sysProcTable := rfl
@[simp] theorem State.setCc_faultTable (c : BitVec 3) : (s.setCc c).faultTable = s.faultTable := rfl
@[simp] theorem State.setCc_icr (c : BitVec 3) : (s.setCc c).icr = s.icr := rfl
@[simp] theorem State.setCc_bp0 (c : BitVec 3) : (s.setCc c).bp0 = s.bp0 := rfl
@[simp] theorem State.setCc_bp1 (c : BitVec 3) : (s.setCc c).bp1 = s.bp1 := rfl
@[simp] theorem State.setCc_mem (c : BitVec 3) : (s.setCc c).mem = s.mem := rfl
@[simp] theorem State.setCc_memMap (c : BitVec 3) : (s.setCc c).memMap = s.memMap := rfl
@[simp] theorem State.setCc_stale (c : BitVec 3) : (s.setCc c).stale = s.stale := rfl
@[simp] theorem State.setCc_restarted (c : BitVec 3) : (s.setCc c).restarted = s.restarted := rfl
@[simp] theorem State.setCc_traced (c : BitVec 3) : (s.setCc c).traced = s.traced := rfl
@[simp] theorem State.setCc_env (c : BitVec 3) : (s.setCc c).env = s.env := rfl
@[simp] theorem State.setCc_serial (c : BitVec 3) : (s.setCc c).serial = s.serial := rfl

/-! `setStatus` -/

@[simp] theorem State.setStatus_ip (v : BitVec 4) : (s.setStatus v).ip = s.ip := rfl
@[simp] theorem State.setStatus_globals (v : BitVec 4) : (s.setStatus v).globals = s.globals := rfl
@[simp] theorem State.setStatus_locals (v : BitVec 4) : (s.setStatus v).locals = s.locals := rfl
@[simp] theorem State.setStatus_cached (v : BitVec 4) : (s.setStatus v).cached = s.cached := rfl
@[simp] theorem State.setStatus_fps (v : BitVec 4) : (s.setStatus v).fps = s.fps := rfl
@[simp] theorem State.setStatus_ac (v : BitVec 4) : (s.setStatus v).ac = { s.ac with ast := v } := rfl
@[simp] theorem State.setStatus_pctl (v : BitVec 4) : (s.setStatus v).pctl = s.pctl := rfl
@[simp] theorem State.setStatus_tctl (v : BitVec 4) : (s.setStatus v).tctl = s.tctl := rfl
@[simp] theorem State.setStatus_proc (v : BitVec 4) : (s.setStatus v).proc = s.proc := rfl
@[simp] theorem State.setStatus_procControls (v : BitVec 4) : (s.setStatus v).procControls = s.procControls := rfl
@[simp] theorem State.setStatus_segTable (v : BitVec 4) : (s.setStatus v).segTable = s.segTable := rfl
@[simp] theorem State.setStatus_prcb (v : BitVec 4) : (s.setStatus v).prcb = s.prcb := rfl
@[simp] theorem State.setStatus_dispatchPort (v : BitVec 4) : (s.setStatus v).dispatchPort = s.dispatchPort := rfl
@[simp] theorem State.setStatus_intTable (v : BitVec 4) : (s.setStatus v).intTable = s.intTable := rfl
@[simp] theorem State.setStatus_intStack (v : BitVec 4) : (s.setStatus v).intStack = s.intStack := rfl
@[simp] theorem State.setStatus_region3 (v : BitVec 4) : (s.setStatus v).region3 = s.region3 := rfl
@[simp] theorem State.setStatus_sysProcTable (v : BitVec 4) : (s.setStatus v).sysProcTable = s.sysProcTable := rfl
@[simp] theorem State.setStatus_faultTable (v : BitVec 4) : (s.setStatus v).faultTable = s.faultTable := rfl
@[simp] theorem State.setStatus_icr (v : BitVec 4) : (s.setStatus v).icr = s.icr := rfl
@[simp] theorem State.setStatus_bp0 (v : BitVec 4) : (s.setStatus v).bp0 = s.bp0 := rfl
@[simp] theorem State.setStatus_bp1 (v : BitVec 4) : (s.setStatus v).bp1 = s.bp1 := rfl
@[simp] theorem State.setStatus_mem (v : BitVec 4) : (s.setStatus v).mem = s.mem := rfl
@[simp] theorem State.setStatus_memMap (v : BitVec 4) : (s.setStatus v).memMap = s.memMap := rfl
@[simp] theorem State.setStatus_stale (v : BitVec 4) : (s.setStatus v).stale = s.stale := rfl
@[simp] theorem State.setStatus_restarted (v : BitVec 4) : (s.setStatus v).restarted = s.restarted := rfl
@[simp] theorem State.setStatus_traced (v : BitVec 4) : (s.setStatus v).traced = s.traced := rfl
@[simp] theorem State.setStatus_env (v : BitVec 4) : (s.setStatus v).env = s.env := rfl
@[simp] theorem State.setStatus_serial (v : BitVec 4) : (s.setStatus v).serial = s.serial := rfl

/-! `advance` -/

@[simp] theorem State.advance_ip (n : Word) : (s.advance n).ip = s.ip + n := rfl
@[simp] theorem State.advance_globals (n : Word) : (s.advance n).globals = s.globals := rfl
@[simp] theorem State.advance_locals (n : Word) : (s.advance n).locals = s.locals := rfl
@[simp] theorem State.advance_cached (n : Word) : (s.advance n).cached = s.cached := rfl
@[simp] theorem State.advance_fps (n : Word) : (s.advance n).fps = s.fps := rfl
@[simp] theorem State.advance_ac (n : Word) : (s.advance n).ac = s.ac := rfl
@[simp] theorem State.advance_pctl (n : Word) : (s.advance n).pctl = s.pctl := rfl
@[simp] theorem State.advance_tctl (n : Word) : (s.advance n).tctl = s.tctl := rfl
@[simp] theorem State.advance_proc (n : Word) : (s.advance n).proc = s.proc := rfl
@[simp] theorem State.advance_procControls (n : Word) : (s.advance n).procControls = s.procControls := rfl
@[simp] theorem State.advance_segTable (n : Word) : (s.advance n).segTable = s.segTable := rfl
@[simp] theorem State.advance_prcb (n : Word) : (s.advance n).prcb = s.prcb := rfl
@[simp] theorem State.advance_dispatchPort (n : Word) : (s.advance n).dispatchPort = s.dispatchPort := rfl
@[simp] theorem State.advance_intTable (n : Word) : (s.advance n).intTable = s.intTable := rfl
@[simp] theorem State.advance_intStack (n : Word) : (s.advance n).intStack = s.intStack := rfl
@[simp] theorem State.advance_region3 (n : Word) : (s.advance n).region3 = s.region3 := rfl
@[simp] theorem State.advance_sysProcTable (n : Word) : (s.advance n).sysProcTable = s.sysProcTable := rfl
@[simp] theorem State.advance_faultTable (n : Word) : (s.advance n).faultTable = s.faultTable := rfl
@[simp] theorem State.advance_icr (n : Word) : (s.advance n).icr = s.icr := rfl
@[simp] theorem State.advance_bp0 (n : Word) : (s.advance n).bp0 = s.bp0 := rfl
@[simp] theorem State.advance_bp1 (n : Word) : (s.advance n).bp1 = s.bp1 := rfl
@[simp] theorem State.advance_mem (n : Word) : (s.advance n).mem = s.mem := rfl
@[simp] theorem State.advance_memMap (n : Word) : (s.advance n).memMap = s.memMap := rfl
@[simp] theorem State.advance_stale (n : Word) : (s.advance n).stale = s.stale := rfl
@[simp] theorem State.advance_restarted (n : Word) : (s.advance n).restarted = s.restarted := rfl
@[simp] theorem State.advance_traced (n : Word) : (s.advance n).traced = s.traced := rfl
@[simp] theorem State.advance_env (n : Word) : (s.advance n).env = s.env := rfl
@[simp] theorem State.advance_serial (n : Word) : (s.advance n).serial = s.serial := rfl

/-! `goto` -/

@[simp] theorem State.goto_ip (a : Word) : (s.goto a).ip = a &&& 0xFFFFFFFC#32 := rfl
@[simp] theorem State.goto_globals (a : Word) : (s.goto a).globals = s.globals := rfl
@[simp] theorem State.goto_locals (a : Word) : (s.goto a).locals = s.locals := rfl
@[simp] theorem State.goto_cached (a : Word) : (s.goto a).cached = s.cached := rfl
@[simp] theorem State.goto_fps (a : Word) : (s.goto a).fps = s.fps := rfl
@[simp] theorem State.goto_ac (a : Word) : (s.goto a).ac = s.ac := rfl
@[simp] theorem State.goto_pctl (a : Word) : (s.goto a).pctl = s.pctl := rfl
@[simp] theorem State.goto_tctl (a : Word) : (s.goto a).tctl = s.tctl := rfl
@[simp] theorem State.goto_proc (a : Word) : (s.goto a).proc = s.proc := rfl
@[simp] theorem State.goto_procControls (a : Word) : (s.goto a).procControls = s.procControls := rfl
@[simp] theorem State.goto_segTable (a : Word) : (s.goto a).segTable = s.segTable := rfl
@[simp] theorem State.goto_prcb (a : Word) : (s.goto a).prcb = s.prcb := rfl
@[simp] theorem State.goto_dispatchPort (a : Word) : (s.goto a).dispatchPort = s.dispatchPort := rfl
@[simp] theorem State.goto_intTable (a : Word) : (s.goto a).intTable = s.intTable := rfl
@[simp] theorem State.goto_intStack (a : Word) : (s.goto a).intStack = s.intStack := rfl
@[simp] theorem State.goto_region3 (a : Word) : (s.goto a).region3 = s.region3 := rfl
@[simp] theorem State.goto_sysProcTable (a : Word) : (s.goto a).sysProcTable = s.sysProcTable := rfl
@[simp] theorem State.goto_faultTable (a : Word) : (s.goto a).faultTable = s.faultTable := rfl
@[simp] theorem State.goto_icr (a : Word) : (s.goto a).icr = s.icr := rfl
@[simp] theorem State.goto_bp0 (a : Word) : (s.goto a).bp0 = s.bp0 := rfl
@[simp] theorem State.goto_bp1 (a : Word) : (s.goto a).bp1 = s.bp1 := rfl
@[simp] theorem State.goto_mem (a : Word) : (s.goto a).mem = s.mem := rfl
@[simp] theorem State.goto_memMap (a : Word) : (s.goto a).memMap = s.memMap := rfl
@[simp] theorem State.goto_stale (a : Word) : (s.goto a).stale = s.stale := rfl
@[simp] theorem State.goto_restarted (a : Word) : (s.goto a).restarted = s.restarted := rfl
@[simp] theorem State.goto_traced (a : Word) : (s.goto a).traced = s.traced := rfl
@[simp] theorem State.goto_env (a : Word) : (s.goto a).env = s.env := rfl
@[simp] theorem State.goto_serial (a : Word) : (s.goto a).serial = s.serial := rfl

/-! `event` -/

@[simp] theorem State.event_ip (e : BitVec 8) : (s.event e).ip = s.ip := rfl
@[simp] theorem State.event_globals (e : BitVec 8) : (s.event e).globals = s.globals := rfl
@[simp] theorem State.event_locals (e : BitVec 8) : (s.event e).locals = s.locals := rfl
@[simp] theorem State.event_cached (e : BitVec 8) : (s.event e).cached = s.cached := rfl
@[simp] theorem State.event_fps (e : BitVec 8) : (s.event e).fps = s.fps := rfl
@[simp] theorem State.event_ac (e : BitVec 8) : (s.event e).ac = s.ac := rfl
@[simp] theorem State.event_pctl (e : BitVec 8) : (s.event e).pctl = s.pctl := rfl
@[simp] theorem State.event_tctl (e : BitVec 8) : (s.event e).tctl = s.tctl := rfl
@[simp] theorem State.event_proc (e : BitVec 8) : (s.event e).proc = s.proc := rfl
@[simp] theorem State.event_procControls (e : BitVec 8) : (s.event e).procControls = s.procControls := rfl
@[simp] theorem State.event_segTable (e : BitVec 8) : (s.event e).segTable = s.segTable := rfl
@[simp] theorem State.event_prcb (e : BitVec 8) : (s.event e).prcb = s.prcb := rfl
@[simp] theorem State.event_dispatchPort (e : BitVec 8) : (s.event e).dispatchPort = s.dispatchPort := rfl
@[simp] theorem State.event_intTable (e : BitVec 8) : (s.event e).intTable = s.intTable := rfl
@[simp] theorem State.event_intStack (e : BitVec 8) : (s.event e).intStack = s.intStack := rfl
@[simp] theorem State.event_region3 (e : BitVec 8) : (s.event e).region3 = s.region3 := rfl
@[simp] theorem State.event_sysProcTable (e : BitVec 8) : (s.event e).sysProcTable = s.sysProcTable := rfl
@[simp] theorem State.event_faultTable (e : BitVec 8) : (s.event e).faultTable = s.faultTable := rfl
@[simp] theorem State.event_icr (e : BitVec 8) : (s.event e).icr = s.icr := rfl
@[simp] theorem State.event_bp0 (e : BitVec 8) : (s.event e).bp0 = s.bp0 := rfl
@[simp] theorem State.event_bp1 (e : BitVec 8) : (s.event e).bp1 = s.bp1 := rfl
@[simp] theorem State.event_mem (e : BitVec 8) : (s.event e).mem = s.mem := rfl
@[simp] theorem State.event_memMap (e : BitVec 8) : (s.event e).memMap = s.memMap := rfl
@[simp] theorem State.event_stale (e : BitVec 8) : (s.event e).stale = s.stale := rfl
@[simp] theorem State.event_restarted (e : BitVec 8) : (s.event e).restarted = s.restarted := rfl
@[simp] theorem State.event_traced (e : BitVec 8) : (s.event e).traced = s.traced ||| e := rfl
@[simp] theorem State.event_env (e : BitVec 8) : (s.event e).env = s.env := rfl
@[simp] theorem State.event_serial (e : BitVec 8) : (s.event e).serial = s.serial := rfl

/-! `branch` -/

@[simp] theorem State.branch_ip (a : Word) : (s.branch a).ip = a := rfl
@[simp] theorem State.branch_globals (a : Word) : (s.branch a).globals = s.globals := rfl
@[simp] theorem State.branch_locals (a : Word) : (s.branch a).locals = s.locals := rfl
@[simp] theorem State.branch_cached (a : Word) : (s.branch a).cached = s.cached := rfl
@[simp] theorem State.branch_fps (a : Word) : (s.branch a).fps = s.fps := rfl
@[simp] theorem State.branch_ac (a : Word) : (s.branch a).ac = s.ac := rfl
@[simp] theorem State.branch_pctl (a : Word) : (s.branch a).pctl = s.pctl := rfl
@[simp] theorem State.branch_tctl (a : Word) : (s.branch a).tctl = s.tctl := rfl
@[simp] theorem State.branch_proc (a : Word) : (s.branch a).proc = s.proc := rfl
@[simp] theorem State.branch_procControls (a : Word) : (s.branch a).procControls = s.procControls := rfl
@[simp] theorem State.branch_segTable (a : Word) : (s.branch a).segTable = s.segTable := rfl
@[simp] theorem State.branch_prcb (a : Word) : (s.branch a).prcb = s.prcb := rfl
@[simp] theorem State.branch_dispatchPort (a : Word) : (s.branch a).dispatchPort = s.dispatchPort := rfl
@[simp] theorem State.branch_intTable (a : Word) : (s.branch a).intTable = s.intTable := rfl
@[simp] theorem State.branch_intStack (a : Word) : (s.branch a).intStack = s.intStack := rfl
@[simp] theorem State.branch_region3 (a : Word) : (s.branch a).region3 = s.region3 := rfl
@[simp] theorem State.branch_sysProcTable (a : Word) : (s.branch a).sysProcTable = s.sysProcTable := rfl
@[simp] theorem State.branch_faultTable (a : Word) : (s.branch a).faultTable = s.faultTable := rfl
@[simp] theorem State.branch_icr (a : Word) : (s.branch a).icr = s.icr := rfl
@[simp] theorem State.branch_bp0 (a : Word) : (s.branch a).bp0 = s.bp0 := rfl
@[simp] theorem State.branch_bp1 (a : Word) : (s.branch a).bp1 = s.bp1 := rfl
@[simp] theorem State.branch_mem (a : Word) : (s.branch a).mem = s.mem := rfl
@[simp] theorem State.branch_memMap (a : Word) : (s.branch a).memMap = s.memMap := rfl
@[simp] theorem State.branch_stale (a : Word) : (s.branch a).stale = s.stale := rfl
@[simp] theorem State.branch_restarted (a : Word) : (s.branch a).restarted = s.restarted := rfl
@[simp] theorem State.branch_traced (a : Word) : (s.branch a).traced = s.traced ||| evBranch := rfl
@[simp] theorem State.branch_env (a : Word) : (s.branch a).env = s.env := rfl
@[simp] theorem State.branch_serial (a : Word) : (s.branch a).serial = s.serial := rfl

/-! `setTe` -/

@[simp] theorem State.setTe_ip (b : Bool) : (s.setTe b).ip = s.ip := rfl
@[simp] theorem State.setTe_globals (b : Bool) : (s.setTe b).globals = s.globals := rfl
@[simp] theorem State.setTe_locals (b : Bool) : (s.setTe b).locals = s.locals := rfl
@[simp] theorem State.setTe_cached (b : Bool) : (s.setTe b).cached = s.cached := rfl
@[simp] theorem State.setTe_fps (b : Bool) : (s.setTe b).fps = s.fps := rfl
@[simp] theorem State.setTe_ac (b : Bool) : (s.setTe b).ac = s.ac := rfl
@[simp] theorem State.setTe_pctl (b : Bool) : (s.setTe b).pctl = setBit s.pctl 0 b := rfl
@[simp] theorem State.setTe_tctl (b : Bool) : (s.setTe b).tctl = s.tctl := rfl
@[simp] theorem State.setTe_proc (b : Bool) : (s.setTe b).proc = s.proc := rfl
@[simp] theorem State.setTe_procControls (b : Bool) : (s.setTe b).procControls = s.procControls := rfl
@[simp] theorem State.setTe_segTable (b : Bool) : (s.setTe b).segTable = s.segTable := rfl
@[simp] theorem State.setTe_prcb (b : Bool) : (s.setTe b).prcb = s.prcb := rfl
@[simp] theorem State.setTe_dispatchPort (b : Bool) : (s.setTe b).dispatchPort = s.dispatchPort := rfl
@[simp] theorem State.setTe_intTable (b : Bool) : (s.setTe b).intTable = s.intTable := rfl
@[simp] theorem State.setTe_intStack (b : Bool) : (s.setTe b).intStack = s.intStack := rfl
@[simp] theorem State.setTe_region3 (b : Bool) : (s.setTe b).region3 = s.region3 := rfl
@[simp] theorem State.setTe_sysProcTable (b : Bool) : (s.setTe b).sysProcTable = s.sysProcTable := rfl
@[simp] theorem State.setTe_faultTable (b : Bool) : (s.setTe b).faultTable = s.faultTable := rfl
@[simp] theorem State.setTe_icr (b : Bool) : (s.setTe b).icr = s.icr := rfl
@[simp] theorem State.setTe_bp0 (b : Bool) : (s.setTe b).bp0 = s.bp0 := rfl
@[simp] theorem State.setTe_bp1 (b : Bool) : (s.setTe b).bp1 = s.bp1 := rfl
@[simp] theorem State.setTe_mem (b : Bool) : (s.setTe b).mem = s.mem := rfl
@[simp] theorem State.setTe_memMap (b : Bool) : (s.setTe b).memMap = s.memMap := rfl
@[simp] theorem State.setTe_stale (b : Bool) : (s.setTe b).stale = s.stale := rfl
@[simp] theorem State.setTe_restarted (b : Bool) : (s.setTe b).restarted = s.restarted := rfl
@[simp] theorem State.setTe_traced (b : Bool) : (s.setTe b).traced = s.traced := rfl
@[simp] theorem State.setTe_env (b : Bool) : (s.setTe b).env = s.env := rfl
@[simp] theorem State.setTe_serial (b : Bool) : (s.setTe b).serial = s.serial := rfl

/-! `setSupervisor` -/

@[simp] theorem State.setSupervisor_ip (b : Bool) : (s.setSupervisor b).ip = s.ip := rfl
@[simp] theorem State.setSupervisor_globals (b : Bool) : (s.setSupervisor b).globals = s.globals := rfl
@[simp] theorem State.setSupervisor_locals (b : Bool) : (s.setSupervisor b).locals = s.locals := rfl
@[simp] theorem State.setSupervisor_cached (b : Bool) : (s.setSupervisor b).cached = s.cached := rfl
@[simp] theorem State.setSupervisor_fps (b : Bool) : (s.setSupervisor b).fps = s.fps := rfl
@[simp] theorem State.setSupervisor_ac (b : Bool) : (s.setSupervisor b).ac = s.ac := rfl
@[simp] theorem State.setSupervisor_pctl (b : Bool) : (s.setSupervisor b).pctl = setBit s.pctl 1 b := rfl
@[simp] theorem State.setSupervisor_tctl (b : Bool) : (s.setSupervisor b).tctl = s.tctl := rfl
@[simp] theorem State.setSupervisor_proc (b : Bool) : (s.setSupervisor b).proc = s.proc := rfl
@[simp] theorem State.setSupervisor_procControls (b : Bool) : (s.setSupervisor b).procControls = s.procControls := rfl
@[simp] theorem State.setSupervisor_segTable (b : Bool) : (s.setSupervisor b).segTable = s.segTable := rfl
@[simp] theorem State.setSupervisor_prcb (b : Bool) : (s.setSupervisor b).prcb = s.prcb := rfl
@[simp] theorem State.setSupervisor_dispatchPort (b : Bool) : (s.setSupervisor b).dispatchPort = s.dispatchPort := rfl
@[simp] theorem State.setSupervisor_intTable (b : Bool) : (s.setSupervisor b).intTable = s.intTable := rfl
@[simp] theorem State.setSupervisor_intStack (b : Bool) : (s.setSupervisor b).intStack = s.intStack := rfl
@[simp] theorem State.setSupervisor_region3 (b : Bool) : (s.setSupervisor b).region3 = s.region3 := rfl
@[simp] theorem State.setSupervisor_sysProcTable (b : Bool) : (s.setSupervisor b).sysProcTable = s.sysProcTable := rfl
@[simp] theorem State.setSupervisor_faultTable (b : Bool) : (s.setSupervisor b).faultTable = s.faultTable := rfl
@[simp] theorem State.setSupervisor_icr (b : Bool) : (s.setSupervisor b).icr = s.icr := rfl
@[simp] theorem State.setSupervisor_bp0 (b : Bool) : (s.setSupervisor b).bp0 = s.bp0 := rfl
@[simp] theorem State.setSupervisor_bp1 (b : Bool) : (s.setSupervisor b).bp1 = s.bp1 := rfl
@[simp] theorem State.setSupervisor_mem (b : Bool) : (s.setSupervisor b).mem = s.mem := rfl
@[simp] theorem State.setSupervisor_memMap (b : Bool) : (s.setSupervisor b).memMap = s.memMap := rfl
@[simp] theorem State.setSupervisor_stale (b : Bool) : (s.setSupervisor b).stale = s.stale := rfl
@[simp] theorem State.setSupervisor_restarted (b : Bool) : (s.setSupervisor b).restarted = s.restarted := rfl
@[simp] theorem State.setSupervisor_traced (b : Bool) : (s.setSupervisor b).traced = s.traced := rfl
@[simp] theorem State.setSupervisor_env (b : Bool) : (s.setSupervisor b).env = s.env := rfl
@[simp] theorem State.setSupervisor_serial (b : Bool) : (s.setSupervisor b).serial = s.serial := rfl

/-! `withEnv` -/

@[simp] theorem State.withEnv_ip (l : List EnvEvent) : (s.withEnv l).ip = s.ip := rfl
@[simp] theorem State.withEnv_globals (l : List EnvEvent) : (s.withEnv l).globals = s.globals := rfl
@[simp] theorem State.withEnv_locals (l : List EnvEvent) : (s.withEnv l).locals = s.locals := rfl
@[simp] theorem State.withEnv_cached (l : List EnvEvent) : (s.withEnv l).cached = s.cached := rfl
@[simp] theorem State.withEnv_fps (l : List EnvEvent) : (s.withEnv l).fps = s.fps := rfl
@[simp] theorem State.withEnv_ac (l : List EnvEvent) : (s.withEnv l).ac = s.ac := rfl
@[simp] theorem State.withEnv_pctl (l : List EnvEvent) : (s.withEnv l).pctl = s.pctl := rfl
@[simp] theorem State.withEnv_tctl (l : List EnvEvent) : (s.withEnv l).tctl = s.tctl := rfl
@[simp] theorem State.withEnv_proc (l : List EnvEvent) : (s.withEnv l).proc = s.proc := rfl
@[simp] theorem State.withEnv_procControls (l : List EnvEvent) : (s.withEnv l).procControls = s.procControls := rfl
@[simp] theorem State.withEnv_segTable (l : List EnvEvent) : (s.withEnv l).segTable = s.segTable := rfl
@[simp] theorem State.withEnv_prcb (l : List EnvEvent) : (s.withEnv l).prcb = s.prcb := rfl
@[simp] theorem State.withEnv_dispatchPort (l : List EnvEvent) : (s.withEnv l).dispatchPort = s.dispatchPort := rfl
@[simp] theorem State.withEnv_intTable (l : List EnvEvent) : (s.withEnv l).intTable = s.intTable := rfl
@[simp] theorem State.withEnv_intStack (l : List EnvEvent) : (s.withEnv l).intStack = s.intStack := rfl
@[simp] theorem State.withEnv_region3 (l : List EnvEvent) : (s.withEnv l).region3 = s.region3 := rfl
@[simp] theorem State.withEnv_sysProcTable (l : List EnvEvent) : (s.withEnv l).sysProcTable = s.sysProcTable := rfl
@[simp] theorem State.withEnv_faultTable (l : List EnvEvent) : (s.withEnv l).faultTable = s.faultTable := rfl
@[simp] theorem State.withEnv_icr (l : List EnvEvent) : (s.withEnv l).icr = s.icr := rfl
@[simp] theorem State.withEnv_bp0 (l : List EnvEvent) : (s.withEnv l).bp0 = s.bp0 := rfl
@[simp] theorem State.withEnv_bp1 (l : List EnvEvent) : (s.withEnv l).bp1 = s.bp1 := rfl
@[simp] theorem State.withEnv_mem (l : List EnvEvent) : (s.withEnv l).mem = s.mem := rfl
@[simp] theorem State.withEnv_memMap (l : List EnvEvent) : (s.withEnv l).memMap = s.memMap := rfl
@[simp] theorem State.withEnv_stale (l : List EnvEvent) : (s.withEnv l).stale = s.stale := rfl
@[simp] theorem State.withEnv_restarted (l : List EnvEvent) : (s.withEnv l).restarted = s.restarted := rfl
@[simp] theorem State.withEnv_traced (l : List EnvEvent) : (s.withEnv l).traced = s.traced := rfl
@[simp] theorem State.withEnv_env (l : List EnvEvent) : (s.withEnv l).env = l := rfl
@[simp] theorem State.withEnv_serial (l : List EnvEvent) : (s.withEnv l).serial = s.serial := rfl

/-! `markStale` -/

@[simp] theorem State.markStale_ip (a : Word) : (s.markStale a).ip = s.ip := rfl
@[simp] theorem State.markStale_globals (a : Word) : (s.markStale a).globals = s.globals := rfl
@[simp] theorem State.markStale_locals (a : Word) : (s.markStale a).locals = s.locals := rfl
@[simp] theorem State.markStale_cached (a : Word) : (s.markStale a).cached = s.cached := rfl
@[simp] theorem State.markStale_fps (a : Word) : (s.markStale a).fps = s.fps := rfl
@[simp] theorem State.markStale_ac (a : Word) : (s.markStale a).ac = s.ac := rfl
@[simp] theorem State.markStale_pctl (a : Word) : (s.markStale a).pctl = s.pctl := rfl
@[simp] theorem State.markStale_tctl (a : Word) : (s.markStale a).tctl = s.tctl := rfl
@[simp] theorem State.markStale_proc (a : Word) : (s.markStale a).proc = s.proc := rfl
@[simp] theorem State.markStale_procControls (a : Word) : (s.markStale a).procControls = s.procControls := rfl
@[simp] theorem State.markStale_segTable (a : Word) : (s.markStale a).segTable = s.segTable := rfl
@[simp] theorem State.markStale_prcb (a : Word) : (s.markStale a).prcb = s.prcb := rfl
@[simp] theorem State.markStale_dispatchPort (a : Word) : (s.markStale a).dispatchPort = s.dispatchPort := rfl
@[simp] theorem State.markStale_intTable (a : Word) : (s.markStale a).intTable = s.intTable := rfl
@[simp] theorem State.markStale_intStack (a : Word) : (s.markStale a).intStack = s.intStack := rfl
@[simp] theorem State.markStale_region3 (a : Word) : (s.markStale a).region3 = s.region3 := rfl
@[simp] theorem State.markStale_sysProcTable (a : Word) : (s.markStale a).sysProcTable = s.sysProcTable := rfl
@[simp] theorem State.markStale_faultTable (a : Word) : (s.markStale a).faultTable = s.faultTable := rfl
@[simp] theorem State.markStale_icr (a : Word) : (s.markStale a).icr = s.icr := rfl
@[simp] theorem State.markStale_bp0 (a : Word) : (s.markStale a).bp0 = s.bp0 := rfl
@[simp] theorem State.markStale_bp1 (a : Word) : (s.markStale a).bp1 = s.bp1 := rfl
@[simp] theorem State.markStale_mem (a : Word) : (s.markStale a).mem = s.mem := rfl
@[simp] theorem State.markStale_memMap (a : Word) : (s.markStale a).memMap = s.memMap := rfl
@[simp] theorem State.markStale_stale (a : Word) : (s.markStale a).stale = s.noteOld a := rfl
@[simp] theorem State.markStale_restarted (a : Word) : (s.markStale a).restarted = s.restarted := rfl
@[simp] theorem State.markStale_traced (a : Word) : (s.markStale a).traced = s.traced := rfl
@[simp] theorem State.markStale_env (a : Word) : (s.markStale a).env = s.env := rfl
@[simp] theorem State.markStale_serial (a : Word) : (s.markStale a).serial = s.serial := rfl

/-! What is read of the state after them -/

@[simp] theorem State.setReg_readByte (r : Reg) (v : Word) (y : Word) : (s.setReg r v).readByte y = s.readByte y := by unfold State.setReg; split <;> rfl
@[simp] theorem State.setReg_te (r : Reg) (v : Word) : (s.setReg r v).te = s.te := by unfold State.setReg; split <;> rfl
@[simp] theorem State.setReg_supervisor (r : Reg) (v : Word) : (s.setReg r v).supervisor = s.supervisor := by unfold State.setReg; split <;> rfl
@[simp] theorem State.setReg_carry (r : Reg) (v : Word) : (s.setReg r v).carry = s.carry := by unfold State.setReg; split <;> rfl
@[simp] theorem State.setLocal_readByte (i : Fin 16) (x : Slot) (y : Word) : (s.setLocal i x).readByte y = s.readByte y := rfl
@[simp] theorem State.setLocal_frameBase (i : Fin 16) (x : Slot) : (s.setLocal i x).frameBase = s.frameBase := rfl
@[simp] theorem State.setLocal_te (i : Fin 16) (x : Slot) : (s.setLocal i x).te = s.te := rfl
@[simp] theorem State.setLocal_supervisor (i : Fin 16) (x : Slot) : (s.setLocal i x).supervisor = s.supervisor := rfl
@[simp] theorem State.setLocal_carry (i : Fin 16) (x : Slot) : (s.setLocal i x).carry = s.carry := rfl
@[simp] theorem State.setCc_readReg (c : BitVec 3) (q : Reg) : (s.setCc c).readReg q = s.readReg q := rfl
@[simp] theorem State.setCc_localReg (c : BitVec 3) (i : Fin 16) : (s.setCc c).localReg i = s.localReg i := rfl
@[simp] theorem State.setCc_readByte (c : BitVec 3) (y : Word) : (s.setCc c).readByte y = s.readByte y := rfl
@[simp] theorem State.setCc_frameBase (c : BitVec 3) : (s.setCc c).frameBase = s.frameBase := rfl
@[simp] theorem State.setCc_sp (c : BitVec 3) : (s.setCc c).sp = s.sp := rfl
@[simp] theorem State.setCc_te (c : BitVec 3) : (s.setCc c).te = s.te := rfl
@[simp] theorem State.setCc_supervisor (c : BitVec 3) : (s.setCc c).supervisor = s.supervisor := rfl
@[simp] theorem State.setStatus_readReg (v : BitVec 4) (q : Reg) : (s.setStatus v).readReg q = s.readReg q := rfl
@[simp] theorem State.setStatus_localReg (v : BitVec 4) (i : Fin 16) : (s.setStatus v).localReg i = s.localReg i := rfl
@[simp] theorem State.setStatus_readByte (v : BitVec 4) (y : Word) : (s.setStatus v).readByte y = s.readByte y := rfl
@[simp] theorem State.setStatus_frameBase (v : BitVec 4) : (s.setStatus v).frameBase = s.frameBase := rfl
@[simp] theorem State.setStatus_sp (v : BitVec 4) : (s.setStatus v).sp = s.sp := rfl
@[simp] theorem State.setStatus_te (v : BitVec 4) : (s.setStatus v).te = s.te := rfl
@[simp] theorem State.setStatus_supervisor (v : BitVec 4) : (s.setStatus v).supervisor = s.supervisor := rfl
@[simp] theorem State.advance_readReg (n : Word) (q : Reg) : (s.advance n).readReg q = s.readReg q := rfl
@[simp] theorem State.advance_localReg (n : Word) (i : Fin 16) : (s.advance n).localReg i = s.localReg i := rfl
@[simp] theorem State.advance_readByte (n : Word) (y : Word) : (s.advance n).readByte y = s.readByte y := rfl
@[simp] theorem State.advance_frameBase (n : Word) : (s.advance n).frameBase = s.frameBase := rfl
@[simp] theorem State.advance_sp (n : Word) : (s.advance n).sp = s.sp := rfl
@[simp] theorem State.advance_te (n : Word) : (s.advance n).te = s.te := rfl
@[simp] theorem State.advance_supervisor (n : Word) : (s.advance n).supervisor = s.supervisor := rfl
@[simp] theorem State.advance_carry (n : Word) : (s.advance n).carry = s.carry := rfl
@[simp] theorem State.goto_readReg (a : Word) (q : Reg) : (s.goto a).readReg q = s.readReg q := rfl
@[simp] theorem State.goto_localReg (a : Word) (i : Fin 16) : (s.goto a).localReg i = s.localReg i := rfl
@[simp] theorem State.goto_readByte (a : Word) (y : Word) : (s.goto a).readByte y = s.readByte y := rfl
@[simp] theorem State.goto_frameBase (a : Word) : (s.goto a).frameBase = s.frameBase := rfl
@[simp] theorem State.goto_sp (a : Word) : (s.goto a).sp = s.sp := rfl
@[simp] theorem State.goto_te (a : Word) : (s.goto a).te = s.te := rfl
@[simp] theorem State.goto_supervisor (a : Word) : (s.goto a).supervisor = s.supervisor := rfl
@[simp] theorem State.goto_carry (a : Word) : (s.goto a).carry = s.carry := rfl
@[simp] theorem State.event_readReg (e : BitVec 8) (q : Reg) : (s.event e).readReg q = s.readReg q := rfl
@[simp] theorem State.event_localReg (e : BitVec 8) (i : Fin 16) : (s.event e).localReg i = s.localReg i := rfl
@[simp] theorem State.event_readByte (e : BitVec 8) (y : Word) : (s.event e).readByte y = s.readByte y := rfl
@[simp] theorem State.event_frameBase (e : BitVec 8) : (s.event e).frameBase = s.frameBase := rfl
@[simp] theorem State.event_sp (e : BitVec 8) : (s.event e).sp = s.sp := rfl
@[simp] theorem State.event_te (e : BitVec 8) : (s.event e).te = s.te := rfl
@[simp] theorem State.event_supervisor (e : BitVec 8) : (s.event e).supervisor = s.supervisor := rfl
@[simp] theorem State.event_carry (e : BitVec 8) : (s.event e).carry = s.carry := rfl
@[simp] theorem State.branch_readReg (a : Word) (q : Reg) : (s.branch a).readReg q = s.readReg q := rfl
@[simp] theorem State.branch_localReg (a : Word) (i : Fin 16) : (s.branch a).localReg i = s.localReg i := rfl
@[simp] theorem State.branch_readByte (a : Word) (y : Word) : (s.branch a).readByte y = s.readByte y := rfl
@[simp] theorem State.branch_frameBase (a : Word) : (s.branch a).frameBase = s.frameBase := rfl
@[simp] theorem State.branch_sp (a : Word) : (s.branch a).sp = s.sp := rfl
@[simp] theorem State.branch_te (a : Word) : (s.branch a).te = s.te := rfl
@[simp] theorem State.branch_supervisor (a : Word) : (s.branch a).supervisor = s.supervisor := rfl
@[simp] theorem State.branch_carry (a : Word) : (s.branch a).carry = s.carry := rfl
@[simp] theorem State.setTe_readReg (b : Bool) (q : Reg) : (s.setTe b).readReg q = s.readReg q := rfl
@[simp] theorem State.setTe_localReg (b : Bool) (i : Fin 16) : (s.setTe b).localReg i = s.localReg i := rfl
@[simp] theorem State.setTe_readByte (b : Bool) (y : Word) : (s.setTe b).readByte y = s.readByte y := rfl
@[simp] theorem State.setTe_frameBase (b : Bool) : (s.setTe b).frameBase = s.frameBase := rfl
@[simp] theorem State.setTe_sp (b : Bool) : (s.setTe b).sp = s.sp := rfl
@[simp] theorem State.setTe_carry (b : Bool) : (s.setTe b).carry = s.carry := rfl
@[simp] theorem State.setSupervisor_readReg (b : Bool) (q : Reg) : (s.setSupervisor b).readReg q = s.readReg q := rfl
@[simp] theorem State.setSupervisor_localReg (b : Bool) (i : Fin 16) : (s.setSupervisor b).localReg i = s.localReg i := rfl
@[simp] theorem State.setSupervisor_readByte (b : Bool) (y : Word) : (s.setSupervisor b).readByte y = s.readByte y := rfl
@[simp] theorem State.setSupervisor_frameBase (b : Bool) : (s.setSupervisor b).frameBase = s.frameBase := rfl
@[simp] theorem State.setSupervisor_sp (b : Bool) : (s.setSupervisor b).sp = s.sp := rfl
@[simp] theorem State.setSupervisor_carry (b : Bool) : (s.setSupervisor b).carry = s.carry := rfl
@[simp] theorem State.withEnv_readReg (l : List EnvEvent) (q : Reg) : (s.withEnv l).readReg q = s.readReg q := rfl
@[simp] theorem State.withEnv_localReg (l : List EnvEvent) (i : Fin 16) : (s.withEnv l).localReg i = s.localReg i := rfl
@[simp] theorem State.withEnv_readByte (l : List EnvEvent) (y : Word) : (s.withEnv l).readByte y = s.readByte y := rfl
@[simp] theorem State.withEnv_frameBase (l : List EnvEvent) : (s.withEnv l).frameBase = s.frameBase := rfl
@[simp] theorem State.withEnv_sp (l : List EnvEvent) : (s.withEnv l).sp = s.sp := rfl
@[simp] theorem State.withEnv_te (l : List EnvEvent) : (s.withEnv l).te = s.te := rfl
@[simp] theorem State.withEnv_supervisor (l : List EnvEvent) : (s.withEnv l).supervisor = s.supervisor := rfl
@[simp] theorem State.withEnv_carry (l : List EnvEvent) : (s.withEnv l).carry = s.carry := rfl
@[simp] theorem State.markStale_readReg (a : Word) (q : Reg) : (s.markStale a).readReg q = s.readReg q := rfl
@[simp] theorem State.markStale_localReg (a : Word) (i : Fin 16) : (s.markStale a).localReg i = s.localReg i := rfl
@[simp] theorem State.markStale_readByte (a : Word) (y : Word) : (s.markStale a).readByte y = s.readByte y := rfl
@[simp] theorem State.markStale_frameBase (a : Word) : (s.markStale a).frameBase = s.frameBase := rfl
@[simp] theorem State.markStale_sp (a : Word) : (s.markStale a).sp = s.sp := rfl
@[simp] theorem State.markStale_te (a : Word) : (s.markStale a).te = s.te := rfl
@[simp] theorem State.markStale_supervisor (a : Word) : (s.markStale a).supervisor = s.supervisor := rfl
@[simp] theorem State.markStale_carry (a : Word) : (s.markStale a).carry = s.carry := rfl

/-- Which addresses are readable depends on the platform's map alone. -/
theorem State.readable_congr {s t : State} (h : t.memMap = s.memMap) : ∀ (x : Word) (k : Nat),
    t.readable x k = s.readable x k
  | _, 0 => rfl
  | x, k + 1 => by simp only [State.readable, h, State.readable_congr h (x + 1) k]

/-- The contents of an address depend on memory, the map and, for a device, the counter of free values. -/
theorem State.readByte_congr {s t : State} (hm : t.mem = s.mem) (hp : t.memMap = s.memMap) (hs : t.serial = s.serial)
    (x : Word) : t.readByte x = s.readByte x := by
  simp only [State.readByte, hm, hp, hs]

/-- A word read depends on its four bytes. -/
theorem State.readWord_congr {s t : State} {a : Word} (h : ∀ x, t.readByte x = s.readByte x) :
    t.readWord a = s.readWord a := by
  simp only [State.readWord, h]

/-- Words read depend on their bytes. -/
theorem State.readWords_congr {s t : State} (h : ∀ x, t.readByte x = s.readByte x) : ∀ (a : Word) (n : Nat),
    t.readWords a n = s.readWords a n
  | _, 0 => rfl
  | a, n + 1 => by simp only [State.readWords, State.readWord_congr h, State.readWords_congr h (a + 4) n]

end Sys2Proof.Machine
end

