-- ==== Sys2Proof/Laws/Ops.lean ====
section
/-! SUPPORT. What each shared operation can do, said once: the operations that only store, registers, effects, frames. -/

namespace Sys2Proof.Machine

/-! ### Effects -/

section Effects

variable {α β : Type}

@[simp] theorem Eff.bind_ok (a : α) (f : α → Eff β) : (Eff.ok a).bind f = f a := rfl
@[simp] theorem Eff.bind_raise (e : Exn) (f : α → Eff β) : (Eff.raise e : Eff α).bind f = .raise e := rfl
@[simp] theorem Eff.bind_refuse (r : Refusal) (f : α → Eff β) : (Eff.refuse r : Eff α).bind f = .refuse r := rfl
@[simp] theorem Eff.map_ok (a : α) (f : α → β) : (Eff.ok a).map f = .ok (f a) := rfl
@[simp] theorem Eff.map_raise (e : Exn) (f : α → β) : (Eff.raise e : Eff α).map f = .raise e := rfl
@[simp] theorem Eff.map_refuse (r : Refusal) (f : α → β) : (Eff.refuse r : Eff α).map f = .refuse r := rfl

/-- A sequence has a value when both parts have. -/
theorem Eff.bind_eq_ok {x : Eff α} {f : α → Eff β} {b : β} : x.bind f = .ok b ↔ ∃ a, x = .ok a ∧ f a = .ok b := by
  cases x <;> simp

/-- A mapped computation has a value when the computation has. -/
theorem Eff.map_eq_ok {x : Eff α} {f : α → β} {b : β} : x.map f = .ok b ↔ ∃ a, x = .ok a ∧ f a = b := by
  cases x <;> simp

variable (s : State)

@[simp] theorem State.commitThen_ok (a : α) (k : α → Res) : s.commitThen (.ok a) k = k a := rfl
@[simp] theorem State.commitThen_raise (e : Exn) (k : α → Res) :
    s.commitThen (.raise e) k = takeFault e s.ip s.ip s := rfl
@[simp] theorem State.commitThen_refuse (r : Refusal) (k : α → Res) : s.commitThen (.refuse r) k = .refused r := rfl
@[simp] theorem State.commit_ok (t : State) : s.commit (.ok t) = .next t := rfl
@[simp] theorem State.commit_raise (e : Exn) : s.commit (.raise e) = takeFault e s.ip s.ip s := rfl
@[simp] theorem State.commit_refuse (r : Refusal) : s.commit (.refuse r) = .refused r := rfl

/-- How an instruction that commits an effect can end in a next state: with the effect's value, or in a fault handler. -/
theorem State.commitThen_next {s t : State} {x : Eff α} {k : α → Res} (h : s.commitThen x k = .next t) :
    (∃ a, x = .ok a ∧ k a = .next t) ∨ ∃ e, x = .raise e ∧ takeFault e s.ip s.ip s = .next t := by
  cases x with
  | ok a => exact .inl ⟨a, rfl, h⟩
  | raise e => exact .inr ⟨e, rfl, h⟩
  | refuse r => exact absurd h (by simp [State.commitThen])

/-- The same for `commit`. -/
theorem State.commit_next {s t : State} {x : Eff State} (h : s.commit x = .next t) :
    x = .ok t ∨ ∃ e, x = .raise e ∧ takeFault e s.ip s.ip s = .next t := by
  rcases State.commitThen_next h with ⟨a, hx, ha⟩ | h
  · cases ha; exact .inl hx
  · exact .inr h

end Effects

/-! ### Operations that only store -/

/-- `t` is `s` after some stores: only memory and the record of stored words differ, and memory is still canonical. -/
structure State.MemStep (s t : State) : Prop where
  eq : t = { s with mem := t.mem, stale := t.stale }
  wf : s.mem.wf = true → t.mem.wf = true

namespace State.MemStep

variable {s t u : State}

theorem refl (s : State) : s.MemStep s := ⟨rfl, id⟩

theorem trans (h : s.MemStep t) (k : t.MemStep u) : s.MemStep u :=
  ⟨by rw [k.eq]; simp only; rw [h.eq], k.wf ∘ h.wf⟩

theorem ip (h : s.MemStep t) : t.ip = s.ip := by rw [h.eq]
theorem globals (h : s.MemStep t) : t.globals = s.globals := by rw [h.eq]
theorem locals (h : s.MemStep t) : t.locals = s.locals := by rw [h.eq]
theorem cached (h : s.MemStep t) : t.cached = s.cached := by rw [h.eq]
theorem fps (h : s.MemStep t) : t.fps = s.fps := by rw [h.eq]
theorem ac (h : s.MemStep t) : t.ac = s.ac := by rw [h.eq]
theorem pctl (h : s.MemStep t) : t.pctl = s.pctl := by rw [h.eq]
theorem tctl (h : s.MemStep t) : t.tctl = s.tctl := by rw [h.eq]
theorem proc (h : s.MemStep t) : t.proc = s.proc := by rw [h.eq]
theorem procControls (h : s.MemStep t) : t.procControls = s.procControls := by rw [h.eq]
theorem segTable (h : s.MemStep t) : t.segTable = s.segTable := by rw [h.eq]
theorem prcb (h : s.MemStep t) : t.prcb = s.prcb := by rw [h.eq]
theorem dispatchPort (h : s.MemStep t) : t.dispatchPort = s.dispatchPort := by rw [h.eq]
theorem intTable (h : s.MemStep t) : t.intTable = s.intTable := by rw [h.eq]
theorem intStack (h : s.MemStep t) : t.intStack = s.intStack := by rw [h.eq]
theorem region3 (h : s.MemStep t) : t.region3 = s.region3 := by rw [h.eq]
theorem sysProcTable (h : s.MemStep t) : t.sysProcTable = s.sysProcTable := by rw [h.eq]
theorem faultTable (h : s.MemStep t) : t.faultTable = s.faultTable := by rw [h.eq]
theorem icr (h : s.MemStep t) : t.icr = s.icr := by rw [h.eq]
theorem bp0 (h : s.MemStep t) : t.bp0 = s.bp0 := by rw [h.eq]
theorem bp1 (h : s.MemStep t) : t.bp1 = s.bp1 := by rw [h.eq]
theorem memMap (h : s.MemStep t) : t.memMap = s.memMap := by rw [h.eq]
theorem restarted (h : s.MemStep t) : t.restarted = s.restarted := by rw [h.eq]
theorem traced (h : s.MemStep t) : t.traced = s.traced := by rw [h.eq]
theorem env (h : s.MemStep t) : t.env = s.env := by rw [h.eq]
theorem serial (h : s.MemStep t) : t.serial = s.serial := by rw [h.eq]

theorem readReg (h : s.MemStep t) (r : Reg) : t.readReg r = s.readReg r := by rw [h.eq]; rfl
theorem localReg (h : s.MemStep t) (i : Fin 16) : t.localReg i = s.localReg i := by rw [h.eq]; rfl
theorem frameBase (h : s.MemStep t) : t.frameBase = s.frameBase := by rw [h.eq]; rfl
theorem supervisor (h : s.MemStep t) : t.supervisor = s.supervisor := by rw [h.eq]; rfl
theorem te (h : s.MemStep t) : t.te = s.te := by rw [h.eq]; rfl

end State.MemStep

theorem State.markStale_memStep (a : Word) (s : State) : s.MemStep (s.markStale a) := by
  exact ⟨rfl, id⟩

theorem State.markStale_storing {s : State} (a : Word) (m : Memory) (h : s.mem.wf = true → m.wf = true) :
    s.MemStep { s.markStale a with mem := m } :=
  ⟨by rw [(State.markStale_memStep a s).eq], h⟩

theorem State.writeByte_memStep (a : Word) (b : Byte) (s : State) : s.MemStep (s.writeByte a b) := by
  unfold State.writeByte
  split
  · exact State.markStale_storing a _ fun h => Memory.write_wf h a.isLt b
  · exact .refl s

theorem State.writeFreeByte_memStep (a : Word) (f : FreeByte) (s : State) : s.MemStep (s.writeFreeByte a f) := by
  unfold State.writeFreeByte
  split
  · exact State.markStale_storing a _ fun h => Memory.writeFree_wf h a.isLt f
  · exact .refl s

theorem State.writeBytes_memStep (bs : List Byte) : ∀ (a : Word) (s : State), s.MemStep (s.writeBytes a bs) := by
  induction bs with
  | nil => exact fun _ s => .refl s
  | cons b bs ih => exact fun a s => (State.writeByte_memStep a b s).trans (ih (a + 1) _)

theorem State.writeWord_memStep (a w : Word) (s : State) : s.MemStep (s.writeWord a w) :=
  State.writeBytes_memStep _ a s

theorem State.writeWords_memStep (ws : List Word) : ∀ (a : Word) (s : State), s.MemStep (s.writeWords a ws) := by
  induction ws with
  | nil => exact fun _ s => .refl s
  | cons w ws ih => exact fun a s => (State.writeWord_memStep a w s).trans (ih (a + 4) _)

theorem State.writeFreeWord_memStep (a : Word) (n i : Nat) (s : State) : s.MemStep (s.writeFreeWord a n i) :=
  ((State.writeFreeByte_memStep _ _ s).trans (State.writeFreeByte_memStep _ _ _)).trans
    ((State.writeFreeByte_memStep _ _ _).trans (State.writeFreeByte_memStep _ _ _))

theorem State.writeSlot_memStep (a : Word) (x : Slot) (s : State) : s.MemStep (s.writeSlot a x) := by
  cases x
  · exact State.writeWord_memStep ..
  · exact State.writeFreeWord_memStep ..

theorem State.writeSlots_memStep (xs : List Slot) : ∀ (a : Word) (s : State), s.MemStep (s.writeSlots a xs) := by
  induction xs with
  | nil => exact fun _ s => .refl s
  | cons x xs ih => exact fun a s => (State.writeSlot_memStep a x s).trans (ih (a + 4) _)

theorem State.flushFrame_memStep (f : CachedFrame) (s : State) : s.MemStep (s.flushFrame f) :=
  State.writeSlots_memStep _ _ s

theorem State.flushBeyond_memStep (l : List CachedFrame) : ∀ (n : Nat) (s : State), s.MemStep (s.flushBeyond n l) := by
  induction l with
  | nil => exact fun _ s => .refl s
  | cons f l ih =>
    intro n s
    cases n with
    | zero => exact (ih 0 s).trans (State.flushFrame_memStep f _)
    | succ n => exact ih n s

theorem State.writeRecordTail_memStep (n : Nat) : ∀ (a : Word) (k : Nat) (s : State),
    s.MemStep (s.writeRecordTail a k n) := by
  induction n with
  | zero => exact fun _ _ s => .refl s
  | succ n ih => exact fun a k s => (State.writeFreeWord_memStep ..).trans (ih ..)

theorem State.writeFaultRecord_memStep (top ip : Word) (r : FaultReport) (s : State) :
    s.MemStep (s.writeFaultRecord top ip r) := by
  unfold State.writeFaultRecord
  exact ((State.writeWord_memStep ..).trans (State.writeWord_memStep ..)).trans
    ((State.writeWord_memStep ..).trans ((State.writeWord_memStep ..).trans
      ((State.writeSlot_memStep ..).trans (State.writeRecordTail_memStep ..))))

theorem State.writeFreeWords_memStep (n : Nat) : ∀ (a : Word) (k : Nat) (s : State),
    s.MemStep (s.writeFreeWords a k n) := by
  induction n with
  | zero => exact fun _ _ s => .refl s
  | succ n ih => exact fun a k s => (State.writeFreeWord_memStep ..).trans (ih ..)

theorem State.copyByte_memStep (d a : Word) (s : State) : s.MemStep (s.copyByte d a) := by
  unfold State.copyByte
  split
  · exact State.writeFreeByte_memStep ..
  · exact State.writeFreeByte_memStep ..
  · exact State.writeByte_memStep ..

theorem State.copyUp_memStep (n : Nat) : ∀ (d a : Word) (s : State), s.MemStep (s.copyUp d a n) := by
  induction n with
  | zero => exact fun _ _ s => .refl s
  | succ n ih => exact fun d a s => (State.copyByte_memStep ..).trans (ih ..)

theorem State.copyDown_memStep (n : Nat) : ∀ (d a : Word) (s : State), s.MemStep (s.copyDown d a n) := by
  induction n with
  | zero => exact fun _ _ s => .refl s
  | succ n ih => exact fun d a s => (State.copyByte_memStep ..).trans (ih ..)

theorem State.moveString_memStep (d a : Word) (n : Nat) (s : State) : s.MemStep (s.moveString d a n) := by
  unfold State.moveString; split
  · exact State.copyDown_memStep ..
  · exact State.copyUp_memStep ..

theorem State.freeBytes_memStep (n : Nat) : ∀ (d : Word) (s : State), s.MemStep (s.freeBytes d n) := by
  induction n with
  | zero => exact fun _ s => .refl s
  | succ n ih => exact fun d s => (State.writeFreeByte_memStep ..).trans (ih ..)

theorem State.fillBytes_memStep (v : Word) (n : Nat) : ∀ (d : Word) (k : Nat) (s : State),
    s.MemStep (s.fillBytes v d k n) := by
  induction n with
  | zero => exact fun _ _ s => .refl s
  | succ n ih => exact fun d k s => (State.writeByte_memStep ..).trans (ih ..)

/-! ### Bytes read after stores -/

/-- After a store of one byte: RAM holds it at its address, every other byte reads as before. -/
theorem State.readByte_writeByte (s : State) (a x : Word) (b : Byte) :
    (s.writeByte a b).readByte x =
      if x = a ∧ kindAt s.memMap a.toNat = .ram then b else s.readByte x := by
  unfold State.writeByte
  split
  · rename_i h
    simp only [State.readByte, State.markStale_memMap, State.markStale_serial, Memory.read_write, h, and_true]
    by_cases hx : x = a
    · subst hx; simp [h]
    · have : x.toNat ≠ a.toNat := fun e => hx (BitVec.eq_of_toNat_eq e)
      simp [hx, this]
  · rename_i h
    simp [show ¬ kindAt s.memMap a.toNat = .ram from h]

/-- After a byte was left free. -/
theorem State.readByte_writeFreeByte (s : State) (a x : Word) (f : FreeByte) :
    (s.writeFreeByte a f).readByte x =
      if x = a ∧ kindAt s.memMap a.toNat = .ram then f.val else s.readByte x := by
  unfold State.writeFreeByte
  split
  · rename_i h
    simp only [State.readByte, State.markStale_memMap, State.markStale_serial, Memory.read_writeFree, h, and_true]
    by_cases hx : x = a
    · subst hx; simp [h]
    · have : x.toNat ≠ a.toNat := fun e => hx (BitVec.eq_of_toNat_eq e)
      simp [hx, this]
  · rename_i h
    simp [show ¬ kindAt s.memMap a.toNat = .ram from h]

theorem State.readByte_writeByte_ne {s : State} {a x : Word} (b : Byte) (h : x ≠ a) :
    (s.writeByte a b).readByte x = s.readByte x := by
  rw [State.readByte_writeByte, if_neg (fun e => h e.1)]

theorem State.readByte_writeFreeByte_ne {s : State} {a x : Word} (f : FreeByte) (h : x ≠ a) :
    (s.writeFreeByte a f).readByte x = s.readByte x := by
  rw [State.readByte_writeFreeByte, if_neg (fun e => h e.1)]

namespace State.SameOutside

variable {s t u : State}

theorem refl (a : Word) (n : Nat) (s : State) : State.SameOutside a n s s := fun _ _ => rfl

theorem trans {a : Word} {n : Nat} (h : State.SameOutside a n s t) (k : State.SameOutside a n t u) :
    State.SameOutside a n s u := fun x hx => (k x hx).trans (h x hx)

/-- Stores to a part of a range leave everything outside the range. -/
theorem part {a b : Word} {n m : Nat} (h : State.SameOutside b m s t) (hb : (b - a).toNat + m ≤ n) :
    State.SameOutside a n s t := by
  intro x hx
  refine h x ?_
  bv_omega

end State.SameOutside

theorem State.writeByte_sameOutside (s : State) (a : Word) (b : Byte) : State.SameOutside a 1 s (s.writeByte a b) :=
  fun x hx => State.readByte_writeByte_ne b (by rintro rfl; simp at hx)

theorem State.writeFreeByte_sameOutside (s : State) (a : Word) (f : FreeByte) :
    State.SameOutside a 1 s (s.writeFreeByte a f) :=
  fun x hx => State.readByte_writeFreeByte_ne f (by rintro rfl; simp at hx)

theorem State.writeBytes_sameOutside (bs : List Byte) : ∀ (a : Word) (s : State),
    State.SameOutside a bs.length s (s.writeBytes a bs) := by
  induction bs with
  | nil => exact fun a s => .refl a 0 s
  | cons b bs ih =>
    intro a s x hx
    simp only [List.length_cons] at hx
    refine (ih (a + 1) _ x ?_).trans (State.writeByte_sameOutside s a b x ?_) <;> bv_omega

theorem State.writeWord_sameOutside (s : State) (a w : Word) : State.SameOutside a 4 s (s.writeWord a w) :=
  State.writeBytes_sameOutside (bytesOfWord w) a s

theorem State.writeWords_sameOutside (ws : List Word) : ∀ (a : Word) (s : State),
    State.SameOutside a (4 * ws.length) s (s.writeWords a ws) := by
  induction ws with
  | nil => exact fun a s => .refl a 0 s
  | cons w ws ih =>
    intro a s x hx
    simp only [List.length_cons] at hx
    refine (ih (a + 4) _ x ?_).trans (State.writeWord_sameOutside s a w x ?_) <;> bv_omega

theorem State.writeFreeWord_sameOutside (s : State) (a : Word) (n i : Nat) :
    State.SameOutside a 4 s (s.writeFreeWord a n i) := by
  intro x hx
  unfold State.writeFreeWord
  rw [State.readByte_writeFreeByte_ne _ (by bv_omega), State.readByte_writeFreeByte_ne _ (by bv_omega),
    State.readByte_writeFreeByte_ne _ (by bv_omega), State.readByte_writeFreeByte_ne _ (by bv_omega)]

theorem State.writeSlot_sameOutside (s : State) (a : Word) (x : Slot) :
    State.SameOutside a 4 s (s.writeSlot a x) := by
  cases x
  · exact State.writeWord_sameOutside _ _ _
  · exact State.writeFreeWord_sameOutside _ _ _ _

theorem State.writeSlots_sameOutside (xs : List Slot) : ∀ (a : Word) (s : State),
    State.SameOutside a (4 * xs.length) s (s.writeSlots a xs) := by
  induction xs with
  | nil => exact fun a s => .refl a 0 s
  | cons x xs ih =>
    intro a s y hy
    simp only [List.length_cons] at hy
    refine (ih (a + 4) _ y ?_).trans (State.writeSlot_sameOutside s a x y ?_) <;> bv_omega

theorem State.flushFrame_sameOutside (f : CachedFrame) (s : State) :
    State.SameOutside f.frame 64 s (s.flushFrame f) := by
  have := State.writeSlots_sameOutside f.regs.toList f.frame s
  simpa [State.flushFrame] using this

/-- Every byte outside the frames flushed reads as before. -/
theorem State.flushBeyond_sameOutside (l : List CachedFrame) : ∀ (n : Nat) (s : State) (x : Word),
    (∀ f ∈ l, 64 ≤ (x - f.frame).toNat) → (s.flushBeyond n l).readByte x = s.readByte x := by
  induction l with
  | nil => exact fun _ _ _ _ => rfl
  | cons f l ih =>
    intro n s x h
    cases n with
    | zero =>
      exact (State.flushFrame_sameOutside f _ x (h f List.mem_cons_self)).trans
        (ih 0 s x fun g hg => h g (List.mem_cons_of_mem _ hg))
    | succ n => exact ih n s x fun g hg => h g (List.mem_cons_of_mem _ hg)

/-- What RAM holds after a store of some bytes. -/
theorem State.readByte_writeBytes (bs : List Byte) : ∀ (a : Word) (s : State) (i : Nat) (b : Byte),
    bs.length ≤ 2 ^ 32 → bs[i]? = some b → kindAt s.memMap (a + BitVec.ofNat 32 i).toNat = .ram →
      (s.writeBytes a bs).readByte (a + BitVec.ofNat 32 i) = b := by
  induction bs with
  | nil => intro a s i b _ h; simp at h
  | cons c bs ih =>
    intro a s i b hl hb hk
    simp only [List.length_cons] at hl
    cases i with
    | zero =>
      simp only [List.getElem?_cons_zero, Option.some.injEq] at hb
      simp only [BitVec.add_zero] at hk ⊢
      rw [State.writeBytes, State.writeBytes_sameOutside bs (a + 1) _ a (by bv_omega), State.readByte_writeByte,
        if_pos ⟨rfl, hk⟩, hb]
    | succ i =>
      have e : a + BitVec.ofNat 32 (i + 1) = a + 1 + BitVec.ofNat 32 i := by
        rw [Nat.add_comm, BitVec.ofNat_add, ← BitVec.add_assoc]; rfl
      rw [e] at hk ⊢
      refine ih (a + 1) _ i b (by omega) (by simpa using hb) ?_
      rwa [(State.writeByte_memStep a c s).memMap]

/-- A word read back from RAM. -/
theorem State.readWord_writeWord (s : State) (a w : Word)
    (h : ∀ i < 4, kindAt s.memMap (a + BitVec.ofNat 32 i).toNat = .ram) : (s.writeWord a w).readWord a = w := by
  have g : ∀ i < 4, ∀ b, (bytesOfWord w)[i]? = some b →
      (s.writeWord a w).readByte (a + BitVec.ofNat 32 i) = b := fun i hi b hb =>
    State.readByte_writeBytes (bytesOfWord w) a s i b (by simp [bytesOfWord]) hb (h i hi)
  have g0 := g 0 (by decide) _ rfl
  have g1 := g 1 (by decide) _ rfl
  have g2 := g 2 (by decide) _ rfl
  have g3 := g 3 (by decide) _ rfl
  simp only [BitVec.add_zero] at g0 g1 g2 g3
  simp only [State.readWord, BitVec.ofNat_eq_ofNat, g0, g1, g2, g3]
  simp only [wordOfBytes, byteOf]
  ext i hi
  simp only [BitVec.getElem_append, BitVec.getElem_extractLsb']
  split
  · simp [BitVec.getLsbD_eq_getElem hi]
  · split
    · rw [BitVec.getElem_eq_testBit_toNat, BitVec.getLsbD]; congr 1; omega
    · split
      · rw [BitVec.getElem_eq_testBit_toNat, BitVec.getLsbD]; congr 1; omega
      · rw [BitVec.getElem_eq_testBit_toNat, BitVec.getLsbD]; congr 1; omega

end Sys2Proof.Machine
end

