-- ==== Sys2Proof/Laws/Registers.lean ====
section
/-! SUPPORT. Registers read after writes, and what a write of a register group leaves. -/

namespace Sys2Proof.Machine

/-- Two register numbers of one bank differ in their place in it. -/
theorem bankIndex_ne {q r : Reg} (h : q ≠ r) (hg : isGlobal q = isGlobal r) : bankIndex q ≠ bankIndex r := by
  revert h hg; revert q r; decide

theorem State.readReg_eq_contents {s : State} {r : Reg} (h : r ≠ 2#5) : s.readReg r = s.contents r := by
  simp [State.readReg, State.contents, h]

@[simp] theorem State.contents_setReg_self (s : State) (r : Reg) (v : Word) : (s.setReg r v).contents r = v := by
  unfold State.contents State.setReg
  split <;> simp [State.localReg, Slot.val]

theorem State.contents_setReg_ne {s : State} {q r : Reg} (v : Word) (h : q ≠ r) :
    (s.setReg r v).contents q = s.contents q := by
  unfold State.contents State.setReg
  by_cases hr : isGlobal r = true <;> by_cases hq : isGlobal q = true <;> simp only [hr, hq, if_true, if_false,
    State.localReg, Bool.false_eq_true]
  · have := bankIndex_ne h (by simp [hr, hq])
    simp only [Fin.getElem_fin, Vector.getElem_set]
    rw [if_neg (fun e => this (Fin.ext e.symm))]
  · have := bankIndex_ne h (by simp [hr, hq])
    simp only [Fin.getElem_fin, Vector.getElem_set]
    rw [if_neg (fun e => this (Fin.ext e.symm))]

/-- A register read after a write. -/
theorem State.contents_setReg (s : State) (q r : Reg) (v : Word) :
    (s.setReg r v).contents q = if q = r then v else s.contents q := by
  by_cases h : q = r
  · subst h; simp
  · simp [h, State.contents_setReg_ne v h]

/-- An operand read after a write of another register than r2. -/
theorem State.readReg_setReg (s : State) (q r : Reg) (v : Word) :
    (s.setReg r v).readReg q = if q = r ∧ q ≠ 2#5 then v else s.readReg q := by
  by_cases h2 : q = 2#5
  · subst h2; simp [State.readReg, isGlobal]
  · rw [State.readReg_eq_contents h2, State.readReg_eq_contents h2, State.contents_setReg]; simp [h2]

/-! ### What depends on the registers, AC or memory only -/

theorem State.contents_congr {s t : State} (hg : t.globals = s.globals) (hl : t.locals = s.locals) (q : Reg) :
    t.contents q = s.contents q := by
  simp only [State.contents, State.localReg, hg, hl]

@[simp] theorem State.contents_advance (s : State) (n : Word) (q : Reg) : (s.advance n).contents q = s.contents q := rfl
@[simp] theorem State.contents_setCc (s : State) (c : BitVec 3) (q : Reg) : (s.setCc c).contents q = s.contents q := rfl
@[simp] theorem State.contents_event (s : State) (e : BitVec 8) (q : Reg) : (s.event e).contents q = s.contents q := rfl
@[simp] theorem State.contents_branch (s : State) (a : Word) (q : Reg) : (s.branch a).contents q = s.contents q := rfl

theorem State.MemStep.contents {s t : State} (h : s.MemStep t) (q : Reg) : t.contents q = s.contents q := by
  rw [h.eq]; rfl

/-- Stores change no register. -/
theorem State.MemStep.sameSpecial {s t : State} (h : s.MemStep t) : SameSpecial s t := by
  rw [h.eq]; constructor <;> rfl

theorem State.MemStep.sameRegisters {s t : State} (h : s.MemStep t) : SameRegisters s t :=
  ⟨h.contents, h.fps, h.sameSpecial⟩

theorem SameSpecial.refl (s : State) : SameSpecial s s := by constructor <;> rfl

theorem SameSpecial.trans {s t u : State} (h : SameSpecial s t) (k : SameSpecial t u) : SameSpecial s u :=
  ⟨k.cached.trans h.cached, k.pctl.trans h.pctl, k.tctl.trans h.tctl, k.proc.trans h.proc,
    k.procControls.trans h.procControls, k.segTable.trans h.segTable, k.prcb.trans h.prcb,
    k.dispatchPort.trans h.dispatchPort, k.intTable.trans h.intTable, k.intStack.trans h.intStack,
    k.region3.trans h.region3, k.sysProcTable.trans h.sysProcTable, k.faultTable.trans h.faultTable,
    k.icr.trans h.icr, k.bp0.trans h.bp0, k.bp1.trans h.bp1, k.memMap.trans h.memMap,
    k.restarted.trans h.restarted, k.env.trans h.env,
    k.serial.trans h.serial⟩

theorem State.setReg_sameSpecial (s : State) (r : Reg) (v : Word) : SameSpecial s (s.setReg r v) := by
  constructor <;> simp

/-! ### Register groups -/

/-- `setRegs` changes the register banks only. -/
structure State.RegStep (s t : State) : Prop where
  eq : t = { s with globals := t.globals, locals := t.locals }

theorem State.RegStep.trans {s t u : State} (h : s.RegStep t) (k : t.RegStep u) : s.RegStep u :=
  ⟨by rw [k.eq]; simp only; rw [h.eq]⟩

theorem State.setReg_regStep (s : State) (r : Reg) (v : Word) : s.RegStep (s.setReg r v) := by
  constructor; unfold State.setReg; split <;> rfl

theorem State.setRegs_regStep (ws : List Word) : ∀ (r : Reg) (s : State), s.RegStep (s.setRegs r ws) := by
  induction ws with
  | nil => exact fun _ _ => ⟨rfl⟩
  | cons w ws ih =>
    exact fun r s => (State.setReg_regStep s r w).trans (ih (r + 1) _)

namespace State.RegStep

variable {s t : State}

theorem mem (h : s.RegStep t) : t.mem = s.mem := by rw [h.eq]
theorem memMap (h : s.RegStep t) : t.memMap = s.memMap := by rw [h.eq]
theorem serial (h : s.RegStep t) : t.serial = s.serial := by rw [h.eq]
theorem ac (h : s.RegStep t) : t.ac = s.ac := by rw [h.eq]
theorem ip (h : s.RegStep t) : t.ip = s.ip := by rw [h.eq]
theorem fps (h : s.RegStep t) : t.fps = s.fps := by rw [h.eq]
theorem stale (h : s.RegStep t) : t.stale = s.stale := by rw [h.eq]
theorem traced (h : s.RegStep t) : t.traced = s.traced := by rw [h.eq]
theorem cached (h : s.RegStep t) : t.cached = s.cached := by rw [h.eq]
theorem tctl (h : s.RegStep t) : t.tctl = s.tctl := by rw [h.eq]
theorem readByte (h : s.RegStep t) (x : Word) : t.readByte x = s.readByte x := by rw [h.eq]; rfl
theorem sameSpecial (h : s.RegStep t) : SameSpecial s t := by rw [h.eq]; constructor <;> rfl

end State.RegStep

/-- A group of at most 32 words is written word by word, and no other register. -/
theorem State.setRegs_writesGroup (ws : List Word) : ∀ (r : Reg) (s : State), ws.length ≤ 32 →
    WritesGroup s r ws (s.setRegs r ws) := by
  induction ws with
  | nil => exact fun r s _ => ⟨by simp, fun _ _ => rfl⟩
  | cons w ws ih =>
    intro r s hl
    simp only [List.length_cons] at hl
    have hi := ih (r + 1) (s.setReg r w) (by omega)
    have step : ∀ k : Nat, r + BitVec.ofNat 5 (k + 1) = r + 1 + BitVec.ofNat 5 k := fun k => by
      rw [Nat.add_comm, BitVec.ofNat_add, ← BitVec.add_assoc]; rfl
    constructor
    · intro k v hk
      cases k with
      | zero =>
        simp only [List.getElem?_cons_zero, Option.some.injEq] at hk
        simp only [BitVec.add_zero, State.setRegs]
        rw [hi.others r ?_]
        · simp [hk]
        · intro k hk' e
          have := congrArg BitVec.toNat e
          simp at this
          omega
      | succ k =>
        rw [step]
        exact hi.written k v (by simpa using hk)
    · intro q hq
      simp only [State.setRegs]
      rw [hi.others q ?_, State.contents_setReg_ne]
      · simpa using hq 0 (by simp)
      · intro k hk
        rw [← step]
        exact hq (k + 1) (by simp; omega)

/-- An instruction that writes a register group and AC, and moves on. -/
theorem writes_of_setRegs {s : State} (r : Reg) (ws : List Word) (hl : ws.length ≤ 32) (len : Word) (ac : ArithControls) :
    Writes s r ws ac len (({ s.setRegs r ws with ac := ac } : State).advance len) := by
  have h := State.setRegs_regStep ws r s
  have g := State.setRegs_writesGroup ws r s hl
  exact
    { group := ⟨g.written, g.others⟩
      ac := rfl
      ip := by simp [h.ip]
      fps := h.fps
      bytes := h.readByte
      stale := h.stale
      traced := h.traced
      special := by
        have := h.sameSpecial
        exact ⟨this.cached, this.pctl, this.tctl, this.proc, this.procControls, this.segTable, this.prcb,
          this.dispatchPort, this.intTable, this.intStack, this.region3, this.sysProcTable, this.faultTable,
          this.icr, this.bp0, this.bp1, this.memMap, this.restarted, this.env, this.serial⟩ }

/-- The same with AC as it was. -/
theorem writes_of_setRegs_ac {s : State} (r : Reg) (ws : List Word) (hl : ws.length ≤ 32) (len : Word) :
    Writes s r ws s.ac len ((s.setRegs r ws).advance len) := by
  have h := writes_of_setRegs (s := s) r ws hl len s.ac
  have e : ({ s.setRegs r ws with ac := s.ac } : State) = s.setRegs r ws := by
    conv_lhs => rw [← (State.setRegs_regStep ws r s).ac]
  rwa [e] at h

/-- One register. -/
theorem writes_of_setReg {s : State} (r : Reg) (w : Word) (len : Word) (ac : ArithControls) :
    Writes s r [w] ac len (({ s.setReg r w with ac := ac } : State).advance len) :=
  writes_of_setRegs r [w] (by simp) len ac

/-- One register, with AC as it was. -/
theorem writes_of_setReg_ac {s : State} (r : Reg) (w : Word) (len : Word) :
    Writes s r [w] s.ac len ((s.setReg r w).advance len) :=
  writes_of_setRegs_ac r [w] (by simp) len

/-- No register, only AC. -/
theorem writes_of_ac {s : State} (r : Reg) (len : Word) (ac : ArithControls) :
    Writes s r [] ac len (({ s with ac := ac } : State).advance len) :=
  writes_of_setRegs r [] (by simp) len ac

/-! ### Operand shapes -/

theorem State.result_reg (s : State) (r : Reg) (v : Word) :
    s.result (.reg r) v = .next ((s.setReg r v).advance 4#32) := rfl

theorem State.resultCc_reg (s : State) (r : Reg) (v : Word) (c : BitVec 3) :
    s.resultCc (.reg r) v c = .next (((s.setReg r v).setCc c).advance 4#32) := rfl

theorem State.resultWords_reg (s : State) (r : Reg) (ws : List Word) (h : Reg.startsGroup (groupSize ws.length) r = true) :
    s.resultWords (.reg r) ws = .next ((s.setRegs r ws).advance 4#32) := by
  simp [State.resultWords, dstWriteWords, aligned, h]

/-- An instruction with a register destination writes that register and nothing else. -/
theorem State.result_writes (s : State) (r : Reg) (v : Word) : Gives (s.result (.reg r) v) (Writes s r [v] s.ac 4#32) :=
  ⟨_, s.result_reg r v, writes_of_setReg_ac r v 4#32⟩

/-- The same, with the condition code. -/
theorem State.resultCc_writes (s : State) (r : Reg) (v : Word) (c : BitVec 3) :
    Gives (s.resultCc (.reg r) v c) (Writes s r [v] { s.ac with cc := c } 4#32) := by
  refine ⟨_, s.resultCc_reg r v c, ?_⟩
  have := writes_of_setReg (s := s) r v 4#32 { s.ac with cc := c }
  simpa [State.setCc] using this

/-- An instruction that writes the condition code only. -/
theorem State.resultOnlyCc_writes (s : State) (r : Reg) (c : BitVec 3) :
    Gives (s.resultOnlyCc c) (Writes s r [] { s.ac with cc := c } 4#32) :=
  ⟨_, rfl, writes_of_ac r 4#32 _⟩

/-- An instruction that writes a register group. -/
theorem State.resultWords_writes (s : State) (r : Reg) (ws : List Word) (hl : ws.length ≤ 32)
    (h : Reg.startsGroup (groupSize ws.length) r = true) :
    Gives (s.resultWords (.reg r) ws) (Writes s r ws s.ac 4#32) :=
  ⟨_, s.resultWords_reg r ws h, writes_of_setRegs_ac r ws hl 4#32⟩

/-- An instruction that writes a register and may overflow (R210). -/
theorem State.resultOverflow_outcome (s : State) (r : Reg) (v : Word) (b : Bool) :
    IntegerOutcome s r v (b = false) (s.resultOverflow (.reg r) v b) := by
  have h := writes_of_setReg_ac (s := s) r v 4#32
  refine ⟨fun e => ⟨_, ?_, h⟩, fun e ho => ?_, fun e ho => ⟨_, h, ?_⟩⟩
  · simp [State.resultOverflow, dstWrite, e]
  · have : b = true := by simpa using e
    refine ⟨_, ?_, writes_of_setReg (s := s) r v 4#32 { s.ac with oflow := true }⟩
    simp [State.resultOverflow, dstWrite, this, integerOverflow, ho, State.advance]
  · have : b = true := by simpa using e
    simp [State.resultOverflow, dstWrite, this, integerOverflow, ho, faultAfter]

end Sys2Proof.Machine
end

