-- ==== Sys2Proof/Laws/Events.lean ====
section
/-! SUPPORT. Frames, faults and interrupts: what entering and leaving them can do, said once, and that they keep the
invariant of the machine. -/

namespace Sys2Proof.Machine

/-! ### Frames -/

/-- With a free register set nothing is flushed. -/
theorem State.flushBeyond_short (l : List CachedFrame) : ∀ (n : Nat) (s : State), l.length ≤ n →
    s.flushBeyond n l = s := by
  induction l with
  | nil => exact fun _ _ _ => rfl
  | cons f l ih =>
    intro n s h
    cases n with
    | zero => simp at h
    | succ n => exact ih n s (by simpa using h)

/-- Entering a frame: what is stored is the oldest register set, if no set is free; then the new set, fp and sp. -/
theorem State.enterFrame_cases (returnIp base r0 : Word) (s : State) :
    ∃ u, s.MemStep u ∧ (s.cached.length < cacheDepth → u = s) ∧
      s.enterFrame returnIp base r0 =
        { u with
          cached := ({ frame := s.frameBase, regs := s.locals.set 2 (.word returnIp) } :: s.cached).take cacheDepth
          locals := newLocals s.serial r0 (base + 64#32)
          globals := s.globals.set 15 base } := by
  refine ⟨s.flushBeyond cacheDepth ({ frame := s.frameBase, regs := s.locals.set 2 (.word returnIp) } :: s.cached),
    State.flushBeyond_memStep _ _ _, fun h => State.flushBeyond_short _ _ _ (by simpa using h), ?_⟩
  unfold State.enterFrame
  simp only [(State.flushBeyond_memStep _ _ s).globals]

/-- r0 of a new frame. -/
@[simp] theorem newLocals_zero (n : Nat) (r0 r1 : Word) : ((newLocals n r0 r1)[(0 : Fin 16)]).val = r0 := by
  simp [newLocals, Slot.val]

/-- r1 of a new frame. -/
@[simp] theorem newLocals_one (n : Nat) (r0 r1 : Word) : ((newLocals n r0 r1)[(1 : Fin 16)]).val = r1 := by
  simp [newLocals, Slot.val]

/-- A return to a frame the chip still holds. -/
theorem State.localReturn_cached {s : State} {regs : RegSet} {older : List CachedFrame}
    (h : findFrame (s.localReg 0 &&& 0xFFFFFFC0#32) s.cached = some (regs, older)) :
    s.localReturn = .ok (({ s with
        globals := s.globals.set 15 (s.localReg 0 &&& 0xFFFFFFC0#32), locals := regs, cached := older }).goto
          (regs[(2 : Fin 16)]).val) := by
  simp only [State.localReturn, h]

/-- How a return ends, if it ends well: fp, a register set and an aligned ip, from the chip or from memory. -/
theorem State.localReturn_ok {s t : State} (h : s.localReturn = .ok t) :
    ∃ regs cached, cached.length ≤ s.cached.length ∧
      t = ({ s with
        globals := s.globals.set 15 (s.localReg 0 &&& 0xFFFFFFC0#32), locals := regs, cached := cached }).goto
          (regs[(2 : Fin 16)]).val := by
  simp only [State.localReturn] at h
  split at h
  · rename_i regs older hf
    cases h
    refine ⟨regs, older, ?_, rfl⟩
    revert hf
    generalize s.cached = l
    induction l with
    | nil => intro h; simp [findFrame] at h
    | cons f l ih =>
      intro h
      unfold findFrame at h
      split at h
      · cases h; simp
      · exact Nat.le_trans (ih h) (by simp)
  · split at h
    · cases h; exact ⟨_, _, le_refl _, rfl⟩
    · cases h

/-! ### The invariant -/

theorem and_three_eq_zero (a : Word) : a &&& 3#32 = 0#32 ↔ a.toNat % 4 = 0 := by
  rw [← BitVec.toNat_inj, BitVec.toNat_and]
  exact Eq.congr (Nat.and_two_pow_sub_one_eq_mod _ 2) rfl

theorem aligned_add {a b : Word} (ha : a &&& 3#32 = 0#32) (hb : b &&& 3#32 = 0#32) : (a + b) &&& 3#32 = 0#32 := by
  rw [and_three_eq_zero] at *
  bv_omega

theorem aligned_mask (a : Word) : (a &&& 0xFFFFFFFC#32) &&& 3#32 = 0#32 := by
  rw [BitVec.and_assoc]; simp

/-- The invariant depends on four fields. -/
theorem State.Inv.congr {s t : State} (h : s.Inv) (hm : s.mem.wf = true → t.mem.wf = true)
    (hi : t.ip &&& 3#32 = 0#32) (hc : t.cached.length ≤ cacheDepth) (ht : t.tctl &&& 0xFF00FF00#32 = 0#32) : t.Inv :=
  ⟨hm h.mem, hi, hc, ht⟩

theorem State.Inv.memStep {s t : State} (h : s.Inv) (k : s.MemStep t) : t.Inv :=
  h.congr k.wf (k.ip ▸ h.ip) (k.cached ▸ h.cached) (k.tctl ▸ h.tctl)

theorem State.Inv.regStep {s t : State} (h : s.Inv) (k : s.RegStep t) : t.Inv :=
  h.congr (by rw [k.mem]; exact id) (k.ip ▸ h.ip) (k.cached ▸ h.cached) (k.tctl ▸ h.tctl)

theorem State.Inv.goto {s : State} (h : s.Inv) (a : Word) : (s.goto a).Inv := ⟨h.mem, aligned_mask a, h.cached, h.tctl⟩

theorem State.Inv.advance {s : State} (h : s.Inv) {n : Word} (hn : n &&& 3#32 = 0#32) : (s.advance n).Inv := by
  exact ⟨h.mem, aligned_add h.ip hn, h.cached, h.tctl⟩

theorem State.Inv.setReg {s : State} (h : s.Inv) (r : Reg) (v : Word) : (s.setReg r v).Inv :=
  h.regStep (State.setReg_regStep s r v)

theorem State.Inv.setRegs {s : State} (h : s.Inv) (r : Reg) (ws : List Word) : (s.setRegs r ws).Inv :=
  h.regStep (State.setRegs_regStep ws r s)

theorem State.Inv.control {s : State} (h : s.Inv) (p : Word) (q : ProcState) : ({ s with pctl := p, proc := q } : State).Inv :=
  ⟨h.mem, h.ip, h.cached, h.tctl⟩

theorem State.Inv.setTraced {s : State} (h : s.Inv) (v : BitVec 8) : ({ s with traced := v } : State).Inv :=
  ⟨h.mem, h.ip, h.cached, h.tctl⟩

theorem State.Inv.setTe {s : State} (h : s.Inv) (b : Bool) : (s.setTe b).Inv := ⟨h.mem, h.ip, h.cached, h.tctl⟩

theorem State.Inv.setSupervisor {s : State} (h : s.Inv) (b : Bool) : (s.setSupervisor b).Inv :=
  ⟨h.mem, h.ip, h.cached, h.tctl⟩

theorem State.Inv.enterFrame {s : State} (h : s.Inv) (a b c : Word) : (s.enterFrame a b c).Inv := by
  obtain ⟨u, hu, -, e⟩ := State.enterFrame_cases a b c s
  rw [e]
  have hi := h.memStep hu
  exact ⟨hi.mem, hi.ip, by simp, hi.tctl⟩

theorem State.Inv.localReturn {s t : State} (h : s.Inv) (e : s.localReturn = .ok t) : t.Inv := by
  obtain ⟨regs, cached, hc, rfl⟩ := State.localReturn_ok e
  exact ⟨h.mem, aligned_mask _, Nat.le_trans hc h.cached, h.tctl⟩

theorem State.Inv.interruptEntry {s t : State} (h : s.Inv) {v : BitVec 8} {a : Word}
    (e : s.interruptEntry v a = .ok t) : t.Inv := by
  unfold State.interruptEntry at e
  obtain ⟨w, -, rfl⟩ := Eff.map_eq_ok.1 e
  refine State.Inv.control ?_ _ _
  refine State.Inv.goto ?_ _
  refine State.Inv.enterFrame ?_ _ _ _
  refine State.Inv.memStep ?_ (State.writeWord_memStep _ _ _)
  refine State.Inv.memStep ?_ (State.writeWord_memStep _ _ _)
  exact h.memStep (State.writeWord_memStep _ _ _)

theorem State.Inv.postInterrupt {s t : State} (h : s.Inv) {v : BitVec 8} (e : s.postInterrupt v = .ok t) : t.Inv := by
  unfold State.postInterrupt at e
  obtain ⟨w, -, e⟩ := Eff.bind_eq_ok.1 e
  obtain ⟨p, -, rfl⟩ := Eff.map_eq_ok.1 e
  exact (h.memStep (State.writeWord_memStep _ _ _)).memStep (State.writeWord_memStep _ _ _)

theorem State.Inv.interruptArrives {s t : State} (h : s.Inv) {v : BitVec 8} (e : s.interruptArrives v = .ok t) :
    t.Inv := by
  unfold State.interruptArrives at e
  split at e
  · cases e; exact h
  · split at e
    · exact h.interruptEntry e
    · exact h.postInterrupt e

theorem State.Inv.checkPending {s t : State} (h : s.Inv) (e : s.checkPending = .ok t) : t.Inv := by
  unfold State.checkPending at e
  obtain ⟨w, -, e⟩ := Eff.bind_eq_ok.1 e
  split at e
  · cases e; exact h
  · split at e
    · obtain ⟨p, -, e⟩ := Eff.bind_eq_ok.1 e
      split at e
      · cases e; exact h
      · refine State.Inv.interruptEntry ?_ e
        split
        · exact (h.memStep (State.writeWord_memStep _ _ _)).memStep (State.writeWord_memStep _ _ _)
        · exact h.memStep (State.writeWord_memStep _ _ _)
    · cases e; exact h

/-- A fault entry, if it ends well. -/
theorem State.faultEntry_ok {s t : State} {n : Nat} {x : FaultReport} {a b : Word} (e : s.faultEntry n x a b = .ok t) :
    ∃ h, s.faultHandler n = .ok h ∧
      let nfp := roundUp64 (roundUp64 h.stack + 44#32)
      let r0 := s.frameBase ||| 1#32 ||| (if s.prereturnOwed then 8#32 else 0#32)
      let v := ((s.writeFaultRecord nfp a x).enterFrame b nfp r0).goto h.target
      let w := match h.switch with
        | some te => (v.setSupervisor true).setTe te
        | none => v
      t = { (if n = 1 then w.setTe false else w) with traced := 0 } := by
  unfold State.faultEntry at e
  obtain ⟨h, hh, rfl⟩ := Eff.map_eq_ok.1 e
  exact ⟨h, hh, rfl⟩

theorem State.Inv.faultEntry {s t : State} (h : s.Inv) {n : Nat} {x : FaultReport} {a b : Word}
    (e : s.faultEntry n x a b = .ok t) : t.Inv := by
  obtain ⟨p, -, rfl⟩ := State.faultEntry_ok e
  have key : ∀ x y z w, ((s.writeFaultRecord x a y).enterFrame b z w |>.goto p.target).Inv := fun _ _ _ _ =>
    State.Inv.goto (State.Inv.enterFrame (h.memStep (State.writeFaultRecord_memStep _ _ _ _)) _ _ _) _
  dsimp only
  refine State.Inv.setTraced ?_ 0
  generalize p.switch = sw
  cases sw with
  | none => split
            · exact (key _ _ _ _).setTe false
            · exact key _ _ _ _
  | some te => split
               · exact (((key _ _ _ _).setSupervisor true).setTe te).setTe false
               · exact ((key _ _ _ _).setSupervisor true).setTe te

theorem State.Inv.systemError {s : State} (h : s.Inv) (r : FaultReport) (a b : Word) : (s.systemError r a b).Inv := by
  unfold State.systemError
  have h0 : s.refault.Inv := h.control (setBit s.pctl 12 true) s.proc
  have h1 := (h0.memStep (State.writeFaultRecord_memStep (s.prcb + 172#32) a r s.refault)).memStep
    (State.writeFreeWord_memStep (s.prcb + 72#32) s.serial systemErrorIndex _)
  revert h1
  generalize State.writeFreeWord (s.prcb + 72#32) s.serial systemErrorIndex
    (s.refault.writeFaultRecord (s.prcb + 172#32) a r) = t
  intro h1
  dsimp only
  split
  · rename_i u hu
    exact (h1.interruptEntry hu).setTraced 0
  · exact (h1.control t.pctl .stopped).setTraced 0

/-- How a fault can end: the handler of its type, the override fault's handler, or the system error. -/
theorem takeFault_next {e : Exn} {a b : Word} {s t : State} (h : takeFault e a b s = .next t) :
    s.faultEntry e.typeNumber e.report a b = .ok t ∨
      (∃ e', s.faultEntry 0 (e.overrideReport e') a b = .ok t) ∨ ∃ r, t = s.systemError r a b := by
  unfold takeFault at h
  split at h
  · cases h; exact .inl (by assumption)
  · cases h
  · split at h
    · cases h; exact .inr (.inl ⟨_, by assumption⟩)
    · cases h
    · exact .inr (.inr ⟨_, (Host.Outcome.next.inj h).symm⟩)

theorem State.Inv.takeFault {s t : State} (h : s.Inv) {e : Exn} {a b : Word}
    (k : Machine.takeFault e a b s = .next t) : t.Inv := by
  rcases takeFault_next k with k | ⟨e', k⟩ | ⟨r, k⟩
  · exact h.faultEntry k
  · exact h.faultEntry k
  · rw [k]; exact h.systemError r a b

/-- An instruction that commits an effect keeps the invariant if the effect does. -/
theorem State.Inv.commitThen {α : Type} {s t : State} (h : s.Inv) {x : Eff α} {k : α → Res}
    (hk : ∀ a t, x = .ok a → k a = .next t → t.Inv) (e : s.commitThen x k = .next t) : t.Inv := by
  rcases State.commitThen_next e with ⟨a, ha, e⟩ | ⟨f, -, e⟩
  · exact hk a t ha e
  · exact h.takeFault e

theorem State.Inv.commit {s t : State} (h : s.Inv) {x : Eff State} (hx : ∀ t, x = .ok t → t.Inv)
    (e : s.commit x = .next t) : t.Inv :=
  h.commitThen (fun a u ha hu => by cases hu; exact hx _ ha) e

theorem State.Inv.integerOverflow {s t : State} (h : s.Inv) {a : Word}
    (e : Machine.integerOverflow a s = .next t) : t.Inv := by
  unfold Machine.integerOverflow at e
  split at e
  · cases e; exact ⟨h.mem, h.ip, h.cached, h.tctl⟩
  · exact h.takeFault e

theorem State.Inv.thenCheckPending {s t : State} (h : s.Inv) (e : Machine.thenCheckPending s = .next t) : t.Inv := by
  unfold Machine.thenCheckPending at e
  split at e
  · cases e; exact h.checkPending (by assumption)
  · exact h.takeFault e
  · cases e

/-- The trace events recorded in TC stay off its reserved bits. -/
theorem recordEvents_reserved {tc : Word} {events : BitVec 8} (h : tc &&& 0xFF00FF00#32 = 0#32) :
    recordEvents tc events &&& 0xFF00FF00#32 = 0#32 := by
  have e : (events.setWidth 32 <<< 16) &&& 0xFF00FF00#32 = 0#32 := by
    revert events; decide
  unfold recordEvents
  apply BitVec.eq_of_getLsbD_eq
  intro i hi
  have h1 := congrArg (fun w => w.getLsbD i) h
  have h2 := congrArg (fun w => w.getLsbD i) e
  simp only [BitVec.getLsbD_and, BitVec.getLsbD_or, BitVec.getLsbD_zero] at h1 h2 ⊢
  revert h1 h2
  generalize tc.getLsbD i = x
  generalize (events.setWidth 32 <<< 16).getLsbD i = y
  generalize (0xFF00FF00#32).getLsbD i = z
  revert x y z; decide

theorem State.Inv.raiseTrace {s t : State} (h : s.Inv) {v : BitVec 8} {a b : Word}
    (e : Machine.raiseTrace v a b s = .next t) : t.Inv := by
  unfold Machine.raiseTrace at e
  exact State.Inv.takeFault (s := { s with tctl := recordEvents s.tctl v, pctl := setBit s.pctl 10 true })
    ⟨h.mem, h.ip, h.cached, recordEvents_reserved h.tctl⟩ e

theorem State.Inv.traceFinish {s t : State} (h : s.Inv) {modes : BitVec 8} {a : Word}
    (e : Machine.traceFinish modes a s = .next t) : t.Inv := by
  unfold Machine.traceFinish at e
  split at e
  · exact State.Inv.raiseTrace (s := { s with serial := s.serial + 1 }) ⟨h.mem, h.ip, h.cached, h.tctl⟩ e
  · cases e; exact ⟨h.mem, h.ip, h.cached, h.tctl⟩

end Sys2Proof.Machine
end

