-- ==== Sys2Proof/Laws/Float.lean ====
section
/-!
SUPPORT. What the shared floating-point operations do, said once: reading operands, ending with exceptions, writing a
target, delivering a result; and a fetch of code that nothing has stored to.
-/

namespace Sys2Proof.Machine

variable {s : State} {f : FpFormat}

/-! ### Operands -/

theorem startsGroup_iff {n : Nat} {r : Reg} : Reg.startsGroup n r = true ↔ r.toNat % n = 0 := by
  simp [Reg.startsGroup]

/-- The alignment that `SourceReady` asks for is the one the machine checks. -/
theorem fsrcStarts_of_ready {x : FSrc} (h : SourceReady s f x) : fsrcStarts f x = true := by
  cases x <;> simp_all [SourceReady, fsrcStarts, groupSize, startsGroup_iff]

theorem fdstStarts_of_ready {d : FDst} (h : TargetReady f d) : fdstStarts f d = true := by
  cases d <;> simp_all [TargetReady, fdstStarts, groupSize, startsGroup_iff]

/-- A source that is ready is read as the operand it holds. -/
theorem fpSource_ready {x : FSrc} (idx : Nat) (h : SourceReady s f x) :
    fpSource s f idx x = .ok (sourceOperand s f x) := by
  have ha := fsrcStarts_of_ready h
  obtain ⟨h1, h2⟩ := h
  have hd : ((sourceOperand s f x).cls == .denormal && !s.ac.nm) = false := by
    cases hc : ((sourceOperand s f x).cls == .denormal) with
    | false => rfl
    | true => simp [h2 (by simpa using hc)]
  cases x with
  | reg r =>
    simp only [fsrcStarts] at ha
    simp only [sourceOperand] at hd ⊢
    simp [fpSource, readFSrc, aligned, ha, checkEncoding, fromFpRegister, hd]
  | fp k =>
    simp only [sourceOperand] at hd h1 ⊢
    have hr : ((decodeExtended s.fps[k.toFin]).cls == .reserved) = false := by simpa using h1
    simp only [fpSource, readFSrc, Eff.bind_ok, checkEncoding, fromFpRegister, hd, hr]
    rfl
  | zero => rfl
  | one =>
    simp only [sourceOperand] at hd ⊢
    simp only [fpSource, readFSrc, Eff.bind_ok, checkEncoding, fromFpRegister, hd]
    simp
  | reserved c => exact h1.elim

/-- A source with a bad encoding raises the reserved-encoding fault. -/
theorem fpSource_denormal {x : FSrc} (idx : Nat) (hs : fsrcStarts f x = true) (hx : ∀ c, x ≠ .reserved c)
    (h : (sourceOperand s f x).cls = .denormal) (hn : s.ac.nm = false) :
    fpSource s f idx x = .raise .fpReservedEncoding := by
  cases x with
  | reg r =>
    simp only [fsrcStarts] at hs
    simp only [sourceOperand] at h
    simp [fpSource, readFSrc, aligned, hs, checkEncoding, h, hn]
  | fp k =>
    simp only [sourceOperand] at h
    have h' : (decodeExtended s.fps[k.toFin]).cls = .denormal := h
    simp only [fpSource, readFSrc, Eff.bind_ok, checkEncoding, h', hn]
    rfl
  | zero => simp [sourceOperand] at h
  | one => simp only [sourceOperand] at h; exact absurd h (by decide)
  | reserved c => exact absurd rfl (hx c)

/-- Where the result of an instruction with this destination goes. -/
def targetOf : FDst → FpTarget
  | .reg r => .regs r
  | .fp k => .fp k
  | .reserved _ => .stray

theorem fpTarget_ready {d : FDst} (h : TargetReady f d) : fpTarget s f d = .ok (targetOf d) := by
  have ha := fdstStarts_of_ready h
  cases d with
  | reg r => simp only [fdstStarts] at ha; simp [fpTarget, aligned, ha, targetOf]
  | fp k => rfl
  | reserved c => exact h.elim

@[simp] theorem targetOf_format (f : FpFormat) (d : FDst) : (targetOf d).format f = targetFormat f d := by
  cases d <;> rfl

/-- One source and a destination that are ready. -/
theorem fpOperand_ready {x : FSrc} {d : FDst} (idx : Nat) (hx : SourceReady s f x) (hd : TargetReady f d) :
    fpOperand s f idx x d = .ok (targetOf d, sourceOperand s f x) := by
  simp [fpOperand, ifAligned, fdstStarts_of_ready hd, fsrcStarts_of_ready hx, fpTarget_ready hd, fpSource_ready idx hx]

/-- Two sources and a destination that are ready. -/
theorem fpOperands_ready {x y : FSrc} {d : FDst} (hx : SourceReady s f x) (hy : SourceReady s f y) (hd : TargetReady f d) :
    fpOperands s f x y d = .ok (targetOf d, sourceOperand s f x, sourceOperand s f y) := by
  simp [fpOperands, ifAligned, fdstStarts_of_ready hd, fsrcStarts_of_ready hx, fsrcStarts_of_ready hy, fpTarget_ready hd,
    fpSource_ready _ hx, fpSource_ready _ hy]

/-- Whatever else is wrong, a misaligned group is refused. -/
theorem fpOperands_misaligned {x y : FSrc} {d : FDst}
    (h : (fdstStarts f d && fsrcStarts f x && fsrcStarts f y) = false) :
    fpOperands s f x y d = .refuse .registerAlignment := by
  simp [fpOperands, ifAligned, h]

theorem fpOperand_misaligned {x : FSrc} {d : FDst} (idx : Nat) (h : (fdstStarts f d && fsrcStarts f x) = false) :
    fpOperand s f idx x d = .refuse .registerAlignment := by
  simp [fpOperand, ifAligned, h]

/-! ### The end of an instruction (R428) -/

/-- With its exceptions masked, an instruction goes on with their flags set. -/
theorem fpFinish_masked {x : FpExceptions} (k : State → Res) (h : Masked s x) :
    fpFinish s x k = k { s with ac := withFlags s.ac x } := by
  obtain ⟨h1, h2, h3, h4, h5⟩ := h
  obtain ⟨i, z, o, u, n⟩ := x
  simp only at h1 h2 h3 h4 h5
  unfold fpFinish withFlags
  cases i <;> cases z <;> cases o <;> cases u <;> cases n <;> simp_all

/-- Otherwise the first one that is not masked is raised. -/
theorem fpFinish_traps (s : State) (x : FpExceptions) (k : State → Res) : Traps s x (fpFinish s x k) := by
  obtain ⟨i, z, o, u, n⟩ := x
  unfold Traps fpFinish withFlags
  generalize s.ac = a
  cases a
  refine ⟨fun h1 h2 => ?_, fun h1 h2 h3 => ?_, fun h1 h2 h3 h4 => ?_, fun h1 h2 h3 h4 h5 => ?_,
    fun h1 h2 h3 h4 h5 h6 => ?_⟩
  all_goals
    simp only at *
    cases i <;> cases z <;> cases o <;> cases u <;> cases n <;> simp_all

/-! ### Writing and delivering a result -/

/-- A result goes to its destination, and only there. -/
theorem targetOf_write {d : FDst} (bits : Ext) (ac : ArithControls) (h : TargetReady f d) :
    FpWrites s f d bits ac (((targetOf d).write f bits { s with ac := ac }).advance 4#32) := by
  cases d with
  | reg r =>
    have w := writes_of_setRegs_ac (s := { s with ac := ac }) r (wordsOfExt f bits)
      (by cases f <;> simp [wordsOfExt]) 4#32
    exact ⟨⟨⟨w.group.written, w.group.others⟩, w.fps⟩, w.ac, w.ip, w.bytes,
      by cases w.special; constructor <;> assumption⟩
  | fp k => exact ⟨⟨fun q => rfl, rfl⟩, rfl, rfl, fun x => rfl, by constructor <;> rfl⟩
  | reserved c => exact h.elim

/-- `fpDeliver` rounds once, and delivers or traps. -/
theorem fpDeliver_delivers {d : FDst} (r : FpResult) (h : TargetReady f d) :
    DeliversRounded s f d r (fpDeliver s f (targetOf d) r) := by
  unfold DeliversRounded Delivers fpDeliver
  simp only [targetOf_format]
  refine ⟨fun hm => ?_, fpFinish_traps _ _ _⟩
  change Gives (fpFinish s (deliveredExceptions (targetFormat f d) s.ac.rc r) _) _
  rw [fpFinish_masked _ hm]
  exact ⟨_, rfl, targetOf_write _ _ h⟩

/-! ### Fetch (R120, D5) -/

/-- Code that nothing has stored to since the last purge is fetched as memory holds it. -/
theorem State.fetchWord_fresh {a : Word} (h : s.staleAt a = []) : s.fetchWord a = s.loadWord a := by
  unfold State.fetchWord State.olderWords
  simp only [h, List.map_nil, List.filter_nil]
  cases s.loadWord a <;> rfl

end Sys2Proof.Machine
end

