-- ==== Sys2Proof/Laws/PerInstr.lean ====
section
/-!
SUPPORT. Statements made for each instruction, one lemma for each constructor: how long its encoding is (R134).
-/

namespace Sys2Proof.Laws.LengthLaw

/-- R134: the encoding has the length its own first word announces. -/
def Statement (i : Instr) : Prop :=
  (encode i).length = if hasDisplacement ((encode i).headD 0) then 2 else 1

/-- A CTRL, COBR or REG instruction is one word. -/
theorem one {i : Instr} {w : Word} (h : encode i = [w]) (hw : opcodeOf w < 0x80) : Statement i := by
  simp [Statement, h, hasDisplacement_below hw]

/-- A MEM instruction is one word or two. -/
theorem mem {i : Instr} {op : BitVec 8} {r : Reg} {m : MemOp} (h : encode i = memWords op r m)
    (hop : 0x80 ≤ op.toNat) : Statement i := by
  unfold Statement
  rw [h]
  cases m <;> simp [memWords, hasDisplacement_membWord hop]

theorem b (x0 : BitVec 22) : Statement (.b x0) := one rfl (by simp)
theorem call (x0 : BitVec 22) : Statement (.call x0) := one rfl (by simp)
theorem ret : Statement .ret := one rfl (by simp)
theorem bal (x0 : BitVec 22) : Statement (.bal x0) := one rfl (by simp)
theorem bno (x0 : BitVec 22) : Statement (.bno x0) := one rfl (by simp)
theorem bg (x0 : BitVec 22) : Statement (.bg x0) := one rfl (by simp)
theorem be (x0 : BitVec 22) : Statement (.be x0) := one rfl (by simp)
theorem bge (x0 : BitVec 22) : Statement (.bge x0) := one rfl (by simp)
theorem bl (x0 : BitVec 22) : Statement (.bl x0) := one rfl (by simp)
theorem bne (x0 : BitVec 22) : Statement (.bne x0) := one rfl (by simp)
theorem ble (x0 : BitVec 22) : Statement (.ble x0) := one rfl (by simp)
theorem bo (x0 : BitVec 22) : Statement (.bo x0) := one rfl (by simp)
theorem faultno : Statement .faultno := one rfl (by simp)
theorem faultg : Statement .faultg := one rfl (by simp)
theorem faulte : Statement .faulte := one rfl (by simp)
theorem faultge : Statement .faultge := one rfl (by simp)
theorem faultl : Statement .faultl := one rfl (by simp)
theorem faultne : Statement .faultne := one rfl (by simp)
theorem faultle : Statement .faultle := one rfl (by simp)
theorem faulto : Statement .faulto := one rfl (by simp)
theorem testno (x0 : Reg) : Statement (.testno x0) := one rfl (by simp)
theorem testg (x0 : Reg) : Statement (.testg x0) := one rfl (by simp)
theorem teste (x0 : Reg) : Statement (.teste x0) := one rfl (by simp)
theorem testge (x0 : Reg) : Statement (.testge x0) := one rfl (by simp)
theorem testl (x0 : Reg) : Statement (.testl x0) := one rfl (by simp)
theorem testne (x0 : Reg) : Statement (.testne x0) := one rfl (by simp)
theorem testle (x0 : Reg) : Statement (.testle x0) := one rfl (by simp)
theorem testo (x0 : Reg) : Statement (.testo x0) := one rfl (by simp)
theorem bbc (x0 : Src) (x1 : Reg) (x2 : BitVec 11) : Statement (.bbc x0 x1 x2) := one rfl (by simp)
theorem cmpobg (x0 : Src) (x1 : Reg) (x2 : BitVec 11) : Statement (.cmpobg x0 x1 x2) := one rfl (by simp)
theorem cmpobe (x0 : Src) (x1 : Reg) (x2 : BitVec 11) : Statement (.cmpobe x0 x1 x2) := one rfl (by simp)
theorem cmpobge (x0 : Src) (x1 : Reg) (x2 : BitVec 11) : Statement (.cmpobge x0 x1 x2) := one rfl (by simp)
theorem cmpobl (x0 : Src) (x1 : Reg) (x2 : BitVec 11) : Statement (.cmpobl x0 x1 x2) := one rfl (by simp)
theorem cmpobne (x0 : Src) (x1 : Reg) (x2 : BitVec 11) : Statement (.cmpobne x0 x1 x2) := one rfl (by simp)
theorem cmpoble (x0 : Src) (x1 : Reg) (x2 : BitVec 11) : Statement (.cmpoble x0 x1 x2) := one rfl (by simp)
theorem bbs (x0 : Src) (x1 : Reg) (x2 : BitVec 11) : Statement (.bbs x0 x1 x2) := one rfl (by simp)
theorem cmpibno (x0 : Src) (x1 : Reg) (x2 : BitVec 11) : Statement (.cmpibno x0 x1 x2) := one rfl (by simp)
theorem cmpibg (x0 : Src) (x1 : Reg) (x2 : BitVec 11) : Statement (.cmpibg x0 x1 x2) := one rfl (by simp)
theorem cmpibe (x0 : Src) (x1 : Reg) (x2 : BitVec 11) : Statement (.cmpibe x0 x1 x2) := one rfl (by simp)
theorem cmpibge (x0 : Src) (x1 : Reg) (x2 : BitVec 11) : Statement (.cmpibge x0 x1 x2) := one rfl (by simp)
theorem cmpibl (x0 : Src) (x1 : Reg) (x2 : BitVec 11) : Statement (.cmpibl x0 x1 x2) := one rfl (by simp)
theorem cmpibne (x0 : Src) (x1 : Reg) (x2 : BitVec 11) : Statement (.cmpibne x0 x1 x2) := one rfl (by simp)
theorem cmpible (x0 : Src) (x1 : Reg) (x2 : BitVec 11) : Statement (.cmpible x0 x1 x2) := one rfl (by simp)
theorem cmpibo (x0 : Src) (x1 : Reg) (x2 : BitVec 11) : Statement (.cmpibo x0 x1 x2) := one rfl (by simp)
theorem ldob (x0 : Reg) (x1 : MemOp) : Statement (.ldob x0 x1) := mem rfl (by decide)
theorem stob (x0 : Reg) (x1 : MemOp) : Statement (.stob x0 x1) := mem rfl (by decide)
theorem bx (x0 : MemOp) : Statement (.bx x0) := mem rfl (by decide)
theorem balx (x0 : Reg) (x1 : MemOp) : Statement (.balx x0 x1) := mem rfl (by decide)
theorem callx (x0 : MemOp) : Statement (.callx x0) := mem rfl (by decide)
theorem ldos (x0 : Reg) (x1 : MemOp) : Statement (.ldos x0 x1) := mem rfl (by decide)
theorem stos (x0 : Reg) (x1 : MemOp) : Statement (.stos x0 x1) := mem rfl (by decide)
theorem lda (x0 : Reg) (x1 : MemOp) : Statement (.lda x0 x1) := mem rfl (by decide)
theorem ld (x0 : Reg) (x1 : MemOp) : Statement (.ld x0 x1) := mem rfl (by decide)
theorem st (x0 : Reg) (x1 : MemOp) : Statement (.st x0 x1) := mem rfl (by decide)
theorem ldl (x0 : Reg) (x1 : MemOp) : Statement (.ldl x0 x1) := mem rfl (by decide)
theorem stl (x0 : Reg) (x1 : MemOp) : Statement (.stl x0 x1) := mem rfl (by decide)
theorem ldt (x0 : Reg) (x1 : MemOp) : Statement (.ldt x0 x1) := mem rfl (by decide)
theorem stt (x0 : Reg) (x1 : MemOp) : Statement (.stt x0 x1) := mem rfl (by decide)
theorem ldq (x0 : Reg) (x1 : MemOp) : Statement (.ldq x0 x1) := mem rfl (by decide)
theorem stq (x0 : Reg) (x1 : MemOp) : Statement (.stq x0 x1) := mem rfl (by decide)
theorem ldib (x0 : Reg) (x1 : MemOp) : Statement (.ldib x0 x1) := mem rfl (by decide)
theorem stib (x0 : Reg) (x1 : MemOp) : Statement (.stib x0 x1) := mem rfl (by decide)
theorem ldis (x0 : Reg) (x1 : MemOp) : Statement (.ldis x0 x1) := mem rfl (by decide)
theorem stis (x0 : Reg) (x1 : MemOp) : Statement (.stis x0 x1) := mem rfl (by decide)
theorem notbit (x0 : Src) (x1 : Src) (x2 : Dst) : Statement (.notbit x0 x1 x2) :=
  one rfl (by rw [opcodeOf_regWord]; decide)
theorem and (x0 : Src) (x1 : Src) (x2 : Dst) : Statement (.and x0 x1 x2) := one rfl (by rw [opcodeOf_regWord]; decide)
theorem andnot (x0 : Src) (x1 : Src) (x2 : Dst) : Statement (.andnot x0 x1 x2) :=
  one rfl (by rw [opcodeOf_regWord]; decide)
theorem setbit (x0 : Src) (x1 : Src) (x2 : Dst) : Statement (.setbit x0 x1 x2) :=
  one rfl (by rw [opcodeOf_regWord]; decide)
theorem notand (x0 : Src) (x1 : Src) (x2 : Dst) : Statement (.notand x0 x1 x2) :=
  one rfl (by rw [opcodeOf_regWord]; decide)
theorem xor (x0 : Src) (x1 : Src) (x2 : Dst) : Statement (.xor x0 x1 x2) := one rfl (by rw [opcodeOf_regWord]; decide)
theorem or (x0 : Src) (x1 : Src) (x2 : Dst) : Statement (.or x0 x1 x2) := one rfl (by rw [opcodeOf_regWord]; decide)
theorem nor (x0 : Src) (x1 : Src) (x2 : Dst) : Statement (.nor x0 x1 x2) := one rfl (by rw [opcodeOf_regWord]; decide)
theorem xnor (x0 : Src) (x1 : Src) (x2 : Dst) : Statement (.xnor x0 x1 x2) := one rfl (by rw [opcodeOf_regWord]; decide)
theorem not (x0 : Src) (x1 : Dst) : Statement (.not x0 x1) := one rfl (by rw [opcodeOf_regWord]; decide)
theorem ornot (x0 : Src) (x1 : Src) (x2 : Dst) : Statement (.ornot x0 x1 x2) :=
  one rfl (by rw [opcodeOf_regWord]; decide)
theorem clrbit (x0 : Src) (x1 : Src) (x2 : Dst) : Statement (.clrbit x0 x1 x2) :=
  one rfl (by rw [opcodeOf_regWord]; decide)
theorem notor (x0 : Src) (x1 : Src) (x2 : Dst) : Statement (.notor x0 x1 x2) :=
  one rfl (by rw [opcodeOf_regWord]; decide)
theorem nand (x0 : Src) (x1 : Src) (x2 : Dst) : Statement (.nand x0 x1 x2) := one rfl (by rw [opcodeOf_regWord]; decide)
theorem alterbit (x0 : Src) (x1 : Src) (x2 : Dst) : Statement (.alterbit x0 x1 x2) :=
  one rfl (by rw [opcodeOf_regWord]; decide)
theorem addo (x0 : Src) (x1 : Src) (x2 : Dst) : Statement (.addo x0 x1 x2) := one rfl (by rw [opcodeOf_regWord]; decide)
theorem addi (x0 : Src) (x1 : Src) (x2 : Dst) : Statement (.addi x0 x1 x2) := one rfl (by rw [opcodeOf_regWord]; decide)
theorem subo (x0 : Src) (x1 : Src) (x2 : Dst) : Statement (.subo x0 x1 x2) := one rfl (by rw [opcodeOf_regWord]; decide)
theorem subi (x0 : Src) (x1 : Src) (x2 : Dst) : Statement (.subi x0 x1 x2) := one rfl (by rw [opcodeOf_regWord]; decide)
theorem shro (x0 : Src) (x1 : Src) (x2 : Dst) : Statement (.shro x0 x1 x2) := one rfl (by rw [opcodeOf_regWord]; decide)
theorem shrdi (x0 : Src) (x1 : Src) (x2 : Dst) : Statement (.shrdi x0 x1 x2) :=
  one rfl (by rw [opcodeOf_regWord]; decide)
theorem shri (x0 : Src) (x1 : Src) (x2 : Dst) : Statement (.shri x0 x1 x2) := one rfl (by rw [opcodeOf_regWord]; decide)
theorem shlo (x0 : Src) (x1 : Src) (x2 : Dst) : Statement (.shlo x0 x1 x2) := one rfl (by rw [opcodeOf_regWord]; decide)
theorem rotate (x0 : Src) (x1 : Src) (x2 : Dst) : Statement (.rotate x0 x1 x2) :=
  one rfl (by rw [opcodeOf_regWord]; decide)
theorem shli (x0 : Src) (x1 : Src) (x2 : Dst) : Statement (.shli x0 x1 x2) := one rfl (by rw [opcodeOf_regWord]; decide)
theorem cmpo (x0 : Src) (x1 : Src) : Statement (.cmpo x0 x1) := one rfl (by rw [opcodeOf_regWord]; decide)
theorem cmpi (x0 : Src) (x1 : Src) : Statement (.cmpi x0 x1) := one rfl (by rw [opcodeOf_regWord]; decide)
theorem concmpo (x0 : Src) (x1 : Src) : Statement (.concmpo x0 x1) := one rfl (by rw [opcodeOf_regWord]; decide)
theorem concmpi (x0 : Src) (x1 : Src) : Statement (.concmpi x0 x1) := one rfl (by rw [opcodeOf_regWord]; decide)
theorem cmpinco (x0 : Src) (x1 : Src) (x2 : Dst) : Statement (.cmpinco x0 x1 x2) :=
  one rfl (by rw [opcodeOf_regWord]; decide)
theorem cmpinci (x0 : Src) (x1 : Src) (x2 : Dst) : Statement (.cmpinci x0 x1 x2) :=
  one rfl (by rw [opcodeOf_regWord]; decide)
theorem cmpdeco (x0 : Src) (x1 : Src) (x2 : Dst) : Statement (.cmpdeco x0 x1 x2) :=
  one rfl (by rw [opcodeOf_regWord]; decide)
theorem cmpdeci (x0 : Src) (x1 : Src) (x2 : Dst) : Statement (.cmpdeci x0 x1 x2) :=
  one rfl (by rw [opcodeOf_regWord]; decide)
theorem scanbyte (x0 : Src) (x1 : Src) : Statement (.scanbyte x0 x1) := one rfl (by rw [opcodeOf_regWord]; decide)
theorem chkbit (x0 : Src) (x1 : Src) : Statement (.chkbit x0 x1) := one rfl (by rw [opcodeOf_regWord]; decide)
theorem addc (x0 : Src) (x1 : Src) (x2 : Dst) : Statement (.addc x0 x1 x2) := one rfl (by rw [opcodeOf_regWord]; decide)
theorem subc (x0 : Src) (x1 : Src) (x2 : Dst) : Statement (.subc x0 x1 x2) := one rfl (by rw [opcodeOf_regWord]; decide)
theorem mov (x0 : Src) (x1 : Dst) : Statement (.mov x0 x1) := one rfl (by rw [opcodeOf_regWord]; decide)
theorem movl (x0 : Src) (x1 : Dst) : Statement (.movl x0 x1) := one rfl (by rw [opcodeOf_regWord]; decide)
theorem movt (x0 : Src) (x1 : Dst) : Statement (.movt x0 x1) := one rfl (by rw [opcodeOf_regWord]; decide)
theorem movq (x0 : Src) (x1 : Dst) : Statement (.movq x0 x1) := one rfl (by rw [opcodeOf_regWord]; decide)
theorem synmov (x0 : Src) (x1 : Src) : Statement (.synmov x0 x1) := one rfl (by rw [opcodeOf_regWord]; decide)
theorem synmovl (x0 : Src) (x1 : Src) : Statement (.synmovl x0 x1) := one rfl (by rw [opcodeOf_regWord]; decide)
theorem synmovq (x0 : Src) (x1 : Src) : Statement (.synmovq x0 x1) := one rfl (by rw [opcodeOf_regWord]; decide)
theorem cmpstr (x0 : Src) (x1 : Src) (x2 : Src) : Statement (.cmpstr x0 x1 x2) :=
  one rfl (by rw [opcodeOf_regWord]; decide)
theorem movqstr (x0 : Src) (x1 : Src) (x2 : Src) : Statement (.movqstr x0 x1 x2) :=
  one rfl (by rw [opcodeOf_regWord]; decide)
theorem movstr (x0 : Src) (x1 : Src) (x2 : Src) : Statement (.movstr x0 x1 x2) :=
  one rfl (by rw [opcodeOf_regWord]; decide)
theorem atmod (x0 : Src) (x1 : Src) (x2 : Dst) : Statement (.atmod x0 x1 x2) :=
  one rfl (by rw [opcodeOf_regWord]; decide)
theorem atadd (x0 : Src) (x1 : Src) (x2 : Dst) : Statement (.atadd x0 x1 x2) :=
  one rfl (by rw [opcodeOf_regWord]; decide)
theorem inspacc (x0 : Src) (x1 : Dst) : Statement (.inspacc x0 x1) := one rfl (by rw [opcodeOf_regWord]; decide)
theorem ldphy (x0 : Src) (x1 : Dst) : Statement (.ldphy x0 x1) := one rfl (by rw [opcodeOf_regWord]; decide)
theorem synld (x0 : Src) (x1 : Dst) : Statement (.synld x0 x1) := one rfl (by rw [opcodeOf_regWord]; decide)
theorem fill (x0 : Src) (x1 : Src) (x2 : Src) : Statement (.fill x0 x1 x2) := one rfl (by rw [opcodeOf_regWord]; decide)
theorem spanbit (x0 : Src) (x1 : Dst) : Statement (.spanbit x0 x1) := one rfl (by rw [opcodeOf_regWord]; decide)
theorem scanbit (x0 : Src) (x1 : Dst) : Statement (.scanbit x0 x1) := one rfl (by rw [opcodeOf_regWord]; decide)
theorem daddc (x0 : Src) (x1 : Src) (x2 : Dst) : Statement (.daddc x0 x1 x2) :=
  one rfl (by rw [opcodeOf_regWord]; decide)
theorem dsubc (x0 : Src) (x1 : Src) (x2 : Dst) : Statement (.dsubc x0 x1 x2) :=
  one rfl (by rw [opcodeOf_regWord]; decide)
theorem dmovt (x0 : Src) (x1 : Dst) : Statement (.dmovt x0 x1) := one rfl (by rw [opcodeOf_regWord]; decide)
theorem modac (x0 : Src) (x1 : Src) (x2 : Dst) : Statement (.modac x0 x1 x2) :=
  one rfl (by rw [opcodeOf_regWord]; decide)
theorem condrec (x0 : Src) (x1 : Dst) : Statement (.condrec x0 x1) := one rfl (by rw [opcodeOf_regWord]; decide)
theorem modify (x0 : Src) (x1 : Src) (x2 : Dst) : Statement (.modify x0 x1 x2) :=
  one rfl (by rw [opcodeOf_regWord]; decide)
theorem extract (x0 : Src) (x1 : Src) (x2 : Dst) : Statement (.extract x0 x1 x2) :=
  one rfl (by rw [opcodeOf_regWord]; decide)
theorem modtc (x0 : Src) (x1 : Src) (x2 : Dst) : Statement (.modtc x0 x1 x2) :=
  one rfl (by rw [opcodeOf_regWord]; decide)
theorem modpc (x0 : Src) (x1 : Src) (x2 : Dst) : Statement (.modpc x0 x1 x2) :=
  one rfl (by rw [opcodeOf_regWord]; decide)
theorem receive (x0 : Src) (x1 : Dst) : Statement (.receive x0 x1) := one rfl (by rw [opcodeOf_regWord]; decide)
theorem calls (x0 : Src) : Statement (.calls x0) := one rfl (by rw [opcodeOf_regWord]; decide)
theorem send (x0 : Src) (x1 : Src) (x2 : Src) : Statement (.send x0 x1 x2) := one rfl (by rw [opcodeOf_regWord]; decide)
theorem sendserv (x0 : Src) : Statement (.sendserv x0) := one rfl (by rw [opcodeOf_regWord]; decide)
theorem resumprcs (x0 : Src) : Statement (.resumprcs x0) := one rfl (by rw [opcodeOf_regWord]; decide)
theorem schedprcs (x0 : Src) : Statement (.schedprcs x0) := one rfl (by rw [opcodeOf_regWord]; decide)
theorem saveprcs : Statement .saveprcs := one rfl (by rw [opcodeOf_regWord]; decide)
theorem condwait (x0 : Src) : Statement (.condwait x0) := one rfl (by rw [opcodeOf_regWord]; decide)
theorem wait (x0 : Src) : Statement (.wait x0) := one rfl (by rw [opcodeOf_regWord]; decide)
theorem signal (x0 : Src) : Statement (.signal x0) := one rfl (by rw [opcodeOf_regWord]; decide)
theorem mark : Statement .mark := one rfl (by rw [opcodeOf_regWord]; decide)
theorem fmark : Statement .fmark := one rfl (by rw [opcodeOf_regWord]; decide)
theorem flushreg : Statement .flushreg := one rfl (by rw [opcodeOf_regWord]; decide)
theorem syncf : Statement .syncf := one rfl (by rw [opcodeOf_regWord]; decide)
theorem emul (x0 : Src) (x1 : Src) (x2 : Dst) : Statement (.emul x0 x1 x2) := one rfl (by rw [opcodeOf_regWord]; decide)
theorem ediv (x0 : Src) (x1 : Src) (x2 : Dst) : Statement (.ediv x0 x1 x2) := one rfl (by rw [opcodeOf_regWord]; decide)
theorem ldtime (x0 : Dst) : Statement (.ldtime x0) := one rfl (by rw [opcodeOf_regWord]; decide)
theorem cvtir (x0 : Src) (x1 : FDst) : Statement (.cvtir x0 x1) := one rfl (by rw [opcodeOf_regWord]; decide)
theorem cvtilr (x0 : Src) (x1 : FDst) : Statement (.cvtilr x0 x1) := one rfl (by rw [opcodeOf_regWord]; decide)
theorem scalerl (x0 : Src) (x1 : FSrc) (x2 : FDst) : Statement (.scalerl x0 x1 x2) :=
  one rfl (by rw [opcodeOf_regWord]; decide)
theorem scaler (x0 : Src) (x1 : FSrc) (x2 : FDst) : Statement (.scaler x0 x1 x2) :=
  one rfl (by rw [opcodeOf_regWord]; decide)
theorem atanr (x0 : FSrc) (x1 : FSrc) (x2 : FDst) : Statement (.atanr x0 x1 x2) :=
  one rfl (by rw [opcodeOf_regWord]; decide)
theorem logepr (x0 : FSrc) (x1 : FSrc) (x2 : FDst) : Statement (.logepr x0 x1 x2) :=
  one rfl (by rw [opcodeOf_regWord]; decide)
theorem logr (x0 : FSrc) (x1 : FSrc) (x2 : FDst) : Statement (.logr x0 x1 x2) :=
  one rfl (by rw [opcodeOf_regWord]; decide)
theorem remr (x0 : FSrc) (x1 : FSrc) (x2 : FDst) : Statement (.remr x0 x1 x2) :=
  one rfl (by rw [opcodeOf_regWord]; decide)
theorem cmpor (x0 : FSrc) (x1 : FSrc) : Statement (.cmpor x0 x1) := one rfl (by rw [opcodeOf_regWord]; decide)
theorem cmpr (x0 : FSrc) (x1 : FSrc) : Statement (.cmpr x0 x1) := one rfl (by rw [opcodeOf_regWord]; decide)
theorem sqrtr (x0 : FSrc) (x1 : FDst) : Statement (.sqrtr x0 x1) := one rfl (by rw [opcodeOf_regWord]; decide)
theorem expr (x0 : FSrc) (x1 : FDst) : Statement (.expr x0 x1) := one rfl (by rw [opcodeOf_regWord]; decide)
theorem logbnr (x0 : FSrc) (x1 : FDst) : Statement (.logbnr x0 x1) := one rfl (by rw [opcodeOf_regWord]; decide)
theorem roundr (x0 : FSrc) (x1 : FDst) : Statement (.roundr x0 x1) := one rfl (by rw [opcodeOf_regWord]; decide)
theorem sinr (x0 : FSrc) (x1 : FDst) : Statement (.sinr x0 x1) := one rfl (by rw [opcodeOf_regWord]; decide)
theorem cosr (x0 : FSrc) (x1 : FDst) : Statement (.cosr x0 x1) := one rfl (by rw [opcodeOf_regWord]; decide)
theorem tanr (x0 : FSrc) (x1 : FDst) : Statement (.tanr x0 x1) := one rfl (by rw [opcodeOf_regWord]; decide)
theorem classr (x0 : FSrc) : Statement (.classr x0) := one rfl (by rw [opcodeOf_regWord]; decide)
theorem atanrl (x0 : FSrc) (x1 : FSrc) (x2 : FDst) : Statement (.atanrl x0 x1 x2) :=
  one rfl (by rw [opcodeOf_regWord]; decide)
theorem logeprl (x0 : FSrc) (x1 : FSrc) (x2 : FDst) : Statement (.logeprl x0 x1 x2) :=
  one rfl (by rw [opcodeOf_regWord]; decide)
theorem logrl (x0 : FSrc) (x1 : FSrc) (x2 : FDst) : Statement (.logrl x0 x1 x2) :=
  one rfl (by rw [opcodeOf_regWord]; decide)
theorem remrl (x0 : FSrc) (x1 : FSrc) (x2 : FDst) : Statement (.remrl x0 x1 x2) :=
  one rfl (by rw [opcodeOf_regWord]; decide)
theorem cmporl (x0 : FSrc) (x1 : FSrc) : Statement (.cmporl x0 x1) := one rfl (by rw [opcodeOf_regWord]; decide)
theorem cmprl (x0 : FSrc) (x1 : FSrc) : Statement (.cmprl x0 x1) := one rfl (by rw [opcodeOf_regWord]; decide)
theorem sqrtrl (x0 : FSrc) (x1 : FDst) : Statement (.sqrtrl x0 x1) := one rfl (by rw [opcodeOf_regWord]; decide)
theorem exprl (x0 : FSrc) (x1 : FDst) : Statement (.exprl x0 x1) := one rfl (by rw [opcodeOf_regWord]; decide)
theorem logbnrl (x0 : FSrc) (x1 : FDst) : Statement (.logbnrl x0 x1) := one rfl (by rw [opcodeOf_regWord]; decide)
theorem roundrl (x0 : FSrc) (x1 : FDst) : Statement (.roundrl x0 x1) := one rfl (by rw [opcodeOf_regWord]; decide)
theorem sinrl (x0 : FSrc) (x1 : FDst) : Statement (.sinrl x0 x1) := one rfl (by rw [opcodeOf_regWord]; decide)
theorem cosrl (x0 : FSrc) (x1 : FDst) : Statement (.cosrl x0 x1) := one rfl (by rw [opcodeOf_regWord]; decide)
theorem tanrl (x0 : FSrc) (x1 : FDst) : Statement (.tanrl x0 x1) := one rfl (by rw [opcodeOf_regWord]; decide)
theorem classrl (x0 : FSrc) : Statement (.classrl x0) := one rfl (by rw [opcodeOf_regWord]; decide)
theorem cvtri (x0 : FSrc) (x1 : Dst) : Statement (.cvtri x0 x1) := one rfl (by rw [opcodeOf_regWord]; decide)
theorem cvtril (x0 : FSrc) (x1 : Dst) : Statement (.cvtril x0 x1) := one rfl (by rw [opcodeOf_regWord]; decide)
theorem cvtzri (x0 : FSrc) (x1 : Dst) : Statement (.cvtzri x0 x1) := one rfl (by rw [opcodeOf_regWord]; decide)
theorem cvtzril (x0 : FSrc) (x1 : Dst) : Statement (.cvtzril x0 x1) := one rfl (by rw [opcodeOf_regWord]; decide)
theorem movr (x0 : FSrc) (x1 : FDst) : Statement (.movr x0 x1) := one rfl (by rw [opcodeOf_regWord]; decide)
theorem movrl (x0 : FSrc) (x1 : FDst) : Statement (.movrl x0 x1) := one rfl (by rw [opcodeOf_regWord]; decide)
theorem movre (x0 : FSrc) (x1 : FDst) : Statement (.movre x0 x1) := one rfl (by rw [opcodeOf_regWord]; decide)
theorem cpysre (x0 : FSrc) (x1 : FSrc) (x2 : FDst) : Statement (.cpysre x0 x1 x2) :=
  one rfl (by rw [opcodeOf_regWord]; decide)
theorem cpyrsre (x0 : FSrc) (x1 : FSrc) (x2 : FDst) : Statement (.cpyrsre x0 x1 x2) :=
  one rfl (by rw [opcodeOf_regWord]; decide)
theorem mulo (x0 : Src) (x1 : Src) (x2 : Dst) : Statement (.mulo x0 x1 x2) := one rfl (by rw [opcodeOf_regWord]; decide)
theorem remo (x0 : Src) (x1 : Src) (x2 : Dst) : Statement (.remo x0 x1 x2) := one rfl (by rw [opcodeOf_regWord]; decide)
theorem divo (x0 : Src) (x1 : Src) (x2 : Dst) : Statement (.divo x0 x1 x2) := one rfl (by rw [opcodeOf_regWord]; decide)
theorem muli (x0 : Src) (x1 : Src) (x2 : Dst) : Statement (.muli x0 x1 x2) := one rfl (by rw [opcodeOf_regWord]; decide)
theorem remi (x0 : Src) (x1 : Src) (x2 : Dst) : Statement (.remi x0 x1 x2) := one rfl (by rw [opcodeOf_regWord]; decide)
theorem modi (x0 : Src) (x1 : Src) (x2 : Dst) : Statement (.modi x0 x1 x2) := one rfl (by rw [opcodeOf_regWord]; decide)
theorem divi (x0 : Src) (x1 : Src) (x2 : Dst) : Statement (.divi x0 x1 x2) := one rfl (by rw [opcodeOf_regWord]; decide)
theorem divr (x0 : FSrc) (x1 : FSrc) (x2 : FDst) : Statement (.divr x0 x1 x2) :=
  one rfl (by rw [opcodeOf_regWord]; decide)
theorem mulr (x0 : FSrc) (x1 : FSrc) (x2 : FDst) : Statement (.mulr x0 x1 x2) :=
  one rfl (by rw [opcodeOf_regWord]; decide)
theorem subr (x0 : FSrc) (x1 : FSrc) (x2 : FDst) : Statement (.subr x0 x1 x2) :=
  one rfl (by rw [opcodeOf_regWord]; decide)
theorem addr (x0 : FSrc) (x1 : FSrc) (x2 : FDst) : Statement (.addr x0 x1 x2) :=
  one rfl (by rw [opcodeOf_regWord]; decide)
theorem divrl (x0 : FSrc) (x1 : FSrc) (x2 : FDst) : Statement (.divrl x0 x1 x2) :=
  one rfl (by rw [opcodeOf_regWord]; decide)
theorem mulrl (x0 : FSrc) (x1 : FSrc) (x2 : FDst) : Statement (.mulrl x0 x1 x2) :=
  one rfl (by rw [opcodeOf_regWord]; decide)
theorem subrl (x0 : FSrc) (x1 : FSrc) (x2 : FDst) : Statement (.subrl x0 x1 x2) :=
  one rfl (by rw [opcodeOf_regWord]; decide)
theorem addrl (x0 : FSrc) (x1 : FSrc) (x2 : FDst) : Statement (.addrl x0 x1 x2) :=
  one rfl (by rw [opcodeOf_regWord]; decide)

end Sys2Proof.Laws.LengthLaw
end

