-- ==== Sys2Proof/Tests/Slice0.lean ====
section
/-!
SUPPORT. The model's own tests: terms the well-formedness check refuses, words the spec prints and what they decode to, the
vectors of 95_test_vectors.md (at most two for each instruction), and a state that meets the hypotheses of each claim.
-/

namespace Sys2Proof.Tests

open Sys2Proof Sys2Proof.Machine

set_option Elab.async false

/-! ### Well-formedness: every check refuses something (R139, R140, R202) -/

/-- Encodable, but with a misaligned register group. -/
def allIllFormed (l : List Instr) : Bool := l.all fun i => !i.wellFormed && i.encodable

/-- With a code that is not a reserved one in a place for reserved codes. -/
def allUnencodable (l : List Instr) : Bool := l.all fun i => !i.wellFormed && !i.encodable

theorem test_misaligned_group_is_ill_formed_1 : allIllFormed
    [.ldl 17 (.base 17), .stl 17 (.base 17), .ldt 18 (.base 17), .stt 18 (.base 17), .ldq 18 (.base 17),
     .stq 18 (.base 17), .movl (.reg 17) (.reg 20), .movl (.reg 20) (.reg 17), .movt (.reg 18) (.reg 20),
     .movt (.reg 20) (.reg 18), .movq (.reg 18) (.reg 20), .movq (.reg 20) (.reg 18),
     .emul (.reg 20) (.reg 20) (.reg 17), .ediv (.reg 20) (.reg 17) (.reg 20), .ediv (.reg 20) (.reg 20) (.reg 17),
     .ldtime (.reg 17), .cvtilr (.reg 17) (.reg 20), .scalerl (.reg 20) (.reg 17) (.reg 20),
     .scalerl (.reg 20) (.reg 20) (.reg 17), .atanrl (.reg 17) (.reg 20) (.reg 20),
     .atanrl (.reg 20) (.reg 17) (.reg 20), .atanrl (.reg 20) (.reg 20) (.reg 17),
     .logeprl (.reg 17) (.reg 20) (.reg 20), .logeprl (.reg 20) (.reg 17) (.reg 20),
     .logeprl (.reg 20) (.reg 20) (.reg 17), .logrl (.reg 17) (.reg 20) (.reg 20),
     .logrl (.reg 20) (.reg 17) (.reg 20), .logrl (.reg 20) (.reg 20) (.reg 17),
     .remrl (.reg 17) (.reg 20) (.reg 20), .remrl (.reg 20) (.reg 17) (.reg 20),
     .remrl (.reg 20) (.reg 20) (.reg 17), .cmporl (.reg 17) (.reg 20), .cmporl (.reg 20) (.reg 17),
     .cmprl (.reg 17) (.reg 20), .cmprl (.reg 20) (.reg 17), .sqrtrl (.reg 17) (.reg 20),
     .sqrtrl (.reg 20) (.reg 17), .exprl (.reg 17) (.reg 20), .exprl (.reg 20) (.reg 17),
     .logbnrl (.reg 17) (.reg 20)] = true := by
  decide

theorem test_misaligned_group_is_ill_formed_2 : allIllFormed
    [.logbnrl (.reg 20) (.reg 17), .roundrl (.reg 17) (.reg 20), .roundrl (.reg 20) (.reg 17),
     .sinrl (.reg 17) (.reg 20), .sinrl (.reg 20) (.reg 17), .cosrl (.reg 17) (.reg 20), .cosrl (.reg 20) (.reg 17),
     .tanrl (.reg 17) (.reg 20), .tanrl (.reg 20) (.reg 17), .classrl (.reg 17), .cvtril (.reg 20) (.reg 17),
     .cvtzril (.reg 20) (.reg 17), .movrl (.reg 17) (.reg 20), .movrl (.reg 20) (.reg 17),
     .movre (.reg 18) (.reg 20), .movre (.reg 20) (.reg 18), .cpysre (.reg 18) (.reg 20) (.reg 20),
     .cpysre (.reg 20) (.reg 18) (.reg 20), .cpysre (.reg 20) (.reg 20) (.reg 18),
     .cpyrsre (.reg 18) (.reg 20) (.reg 20), .cpyrsre (.reg 20) (.reg 18) (.reg 20),
     .cpyrsre (.reg 20) (.reg 20) (.reg 18), .divrl (.reg 17) (.reg 20) (.reg 20),
     .divrl (.reg 20) (.reg 17) (.reg 20), .divrl (.reg 20) (.reg 20) (.reg 17),
     .mulrl (.reg 17) (.reg 20) (.reg 20), .mulrl (.reg 20) (.reg 17) (.reg 20),
     .mulrl (.reg 20) (.reg 20) (.reg 17), .subrl (.reg 17) (.reg 20) (.reg 20),
     .subrl (.reg 20) (.reg 17) (.reg 20), .subrl (.reg 20) (.reg 20) (.reg 17),
     .addrl (.reg 17) (.reg 20) (.reg 20), .addrl (.reg 20) (.reg 17) (.reg 20), .addrl (.reg 20) (.reg 20) (.reg 17)] = true := by
  decide

theorem test_unreserved_code_is_ill_formed_1 : allUnencodable
    [.cvtir (.reg 20) (.reserved 3), .cvtilr (.reg 20) (.reserved 3), .scalerl (.reg 20) (.reserved 0) (.reg 20),
     .scalerl (.reg 20) (.reg 20) (.reserved 3), .scaler (.reg 20) (.reserved 0) (.reg 20),
     .scaler (.reg 20) (.reg 20) (.reserved 3), .atanr (.reserved 0) (.reg 20) (.reg 20),
     .atanr (.reg 20) (.reserved 0) (.reg 20), .atanr (.reg 20) (.reg 20) (.reserved 3),
     .logepr (.reserved 0) (.reg 20) (.reg 20), .logepr (.reg 20) (.reserved 0) (.reg 20),
     .logepr (.reg 20) (.reg 20) (.reserved 3), .logr (.reserved 0) (.reg 20) (.reg 20),
     .logr (.reg 20) (.reserved 0) (.reg 20), .logr (.reg 20) (.reg 20) (.reserved 3),
     .remr (.reserved 0) (.reg 20) (.reg 20), .remr (.reg 20) (.reserved 0) (.reg 20),
     .remr (.reg 20) (.reg 20) (.reserved 3), .cmpor (.reserved 0) (.reg 20), .cmpor (.reg 20) (.reserved 0),
     .cmpr (.reserved 0) (.reg 20), .cmpr (.reg 20) (.reserved 0), .sqrtr (.reserved 0) (.reg 20),
     .sqrtr (.reg 20) (.reserved 3), .expr (.reserved 0) (.reg 20), .expr (.reg 20) (.reserved 3),
     .logbnr (.reserved 0) (.reg 20), .logbnr (.reg 20) (.reserved 3), .roundr (.reserved 0) (.reg 20),
     .roundr (.reg 20) (.reserved 3), .sinr (.reserved 0) (.reg 20), .sinr (.reg 20) (.reserved 3),
     .cosr (.reserved 0) (.reg 20), .cosr (.reg 20) (.reserved 3), .tanr (.reserved 0) (.reg 20),
     .tanr (.reg 20) (.reserved 3), .classr (.reserved 0), .atanrl (.reserved 0) (.reg 20) (.reg 20),
     .atanrl (.reg 20) (.reserved 0) (.reg 20), .atanrl (.reg 20) (.reg 20) (.reserved 3)] = true := by
  decide

theorem test_unreserved_code_is_ill_formed_2 : allUnencodable
    [.logeprl (.reserved 0) (.reg 20) (.reg 20), .logeprl (.reg 20) (.reserved 0) (.reg 20),
     .logeprl (.reg 20) (.reg 20) (.reserved 3), .logrl (.reserved 0) (.reg 20) (.reg 20),
     .logrl (.reg 20) (.reserved 0) (.reg 20), .logrl (.reg 20) (.reg 20) (.reserved 3),
     .remrl (.reserved 0) (.reg 20) (.reg 20), .remrl (.reg 20) (.reserved 0) (.reg 20),
     .remrl (.reg 20) (.reg 20) (.reserved 3), .cmporl (.reserved 0) (.reg 20), .cmporl (.reg 20) (.reserved 0),
     .cmprl (.reserved 0) (.reg 20), .cmprl (.reg 20) (.reserved 0), .sqrtrl (.reserved 0) (.reg 20),
     .sqrtrl (.reg 20) (.reserved 3), .exprl (.reserved 0) (.reg 20), .exprl (.reg 20) (.reserved 3),
     .logbnrl (.reserved 0) (.reg 20), .logbnrl (.reg 20) (.reserved 3), .roundrl (.reserved 0) (.reg 20),
     .roundrl (.reg 20) (.reserved 3), .sinrl (.reserved 0) (.reg 20), .sinrl (.reg 20) (.reserved 3),
     .cosrl (.reserved 0) (.reg 20), .cosrl (.reg 20) (.reserved 3), .tanrl (.reserved 0) (.reg 20),
     .tanrl (.reg 20) (.reserved 3), .classrl (.reserved 0), .cvtri (.reserved 0) (.reg 20),
     .cvtril (.reserved 0) (.reg 20), .cvtzri (.reserved 0) (.reg 20), .cvtzril (.reserved 0) (.reg 20),
     .movr (.reserved 0) (.reg 20), .movr (.reg 20) (.reserved 3), .movrl (.reserved 0) (.reg 20),
     .movrl (.reg 20) (.reserved 3), .movre (.reserved 0) (.reg 20), .movre (.reg 20) (.reserved 3),
     .cpysre (.reserved 0) (.reg 20) (.reg 20), .cpysre (.reg 20) (.reserved 0) (.reg 20)] = true := by
  decide

theorem test_unreserved_code_is_ill_formed_3 : allUnencodable
    [.cpysre (.reg 20) (.reg 20) (.reserved 3), .cpyrsre (.reserved 0) (.reg 20) (.reg 20),
     .cpyrsre (.reg 20) (.reserved 0) (.reg 20), .cpyrsre (.reg 20) (.reg 20) (.reserved 3),
     .divr (.reserved 0) (.reg 20) (.reg 20), .divr (.reg 20) (.reserved 0) (.reg 20),
     .divr (.reg 20) (.reg 20) (.reserved 3), .mulr (.reserved 0) (.reg 20) (.reg 20),
     .mulr (.reg 20) (.reserved 0) (.reg 20), .mulr (.reg 20) (.reg 20) (.reserved 3),
     .subr (.reserved 0) (.reg 20) (.reg 20), .subr (.reg 20) (.reserved 0) (.reg 20),
     .subr (.reg 20) (.reg 20) (.reserved 3), .addr (.reserved 0) (.reg 20) (.reg 20),
     .addr (.reg 20) (.reserved 0) (.reg 20), .addr (.reg 20) (.reg 20) (.reserved 3),
     .divrl (.reserved 0) (.reg 20) (.reg 20), .divrl (.reg 20) (.reserved 0) (.reg 20),
     .divrl (.reg 20) (.reg 20) (.reserved 3), .mulrl (.reserved 0) (.reg 20) (.reg 20),
     .mulrl (.reg 20) (.reserved 0) (.reg 20), .mulrl (.reg 20) (.reg 20) (.reserved 3),
     .subrl (.reserved 0) (.reg 20) (.reg 20), .subrl (.reg 20) (.reserved 0) (.reg 20),
     .subrl (.reg 20) (.reg 20) (.reserved 3), .addrl (.reserved 0) (.reg 20) (.reg 20),
     .addrl (.reg 20) (.reserved 0) (.reg 20), .addrl (.reg 20) (.reg 20) (.reserved 3)] = true := by
  decide

theorem test_aligned_groups_are_well_formed :
    [Instr.ldq 28 (.base 17), .movt (.reg 4) (.reg 8), .emul (.reg 17) (.lit 3) (.reg 30), .movr (.reserved 4) (.fp 3),
      .addrl (.reg 18) .one (.reg 20), .movre (.fp 0) (.reg 20)].all Instr.wellFormed = true := by
  decide

/-! ### Decoding: the words printed in the spec (95_test_vectors.md, and the "Encoding of" lines of the rules) -/

/-- Each list of words decodes to its instruction, with nothing left. -/
def decodesTo (l : List (List Word × Instr)) : Bool := l.all fun p => decide (decode p.1 = .ok (p.2, []))

theorem test_decode_ctrl : decodesTo
    [([0x08000000], .b 0), ([0x09001000], .call 1024), ([0x0A000000], .ret), ([0x0B000100], .bal 64),
     ([0x10000010], .bno 4), ([0x11000010], .bg 4), ([0x12000010], .be 4), ([0x13000010], .bge 4),
     ([0x14000010], .bl 4), ([0x15000010], .bne 4), ([0x16000010], .ble 4), ([0x17000010], .bo 4),
     ([0x18000000], .faultno), ([0x19000000], .faultg), ([0x1A000000], .faulte), ([0x1B000000], .faultge),
     ([0x1C000000], .faultl), ([0x1D000000], .faultne), ([0x1E000000], .faultle), ([0x1F000000], .faulto),
     ([0x08FFFFF8], .b 4194302)] = true := by
  decide

theorem test_decode_cobr : decodesTo
    [([0x20800000], .testno 16), ([0x21800000], .testg 16), ([0x22800000], .teste 16), ([0x23800000], .testge 16),
     ([0x24800000], .testl 16), ([0x25800000], .testne 16), ([0x26800000], .testle 16), ([0x27800000], .testo 16),
     ([0x301C200C], .bbc (.lit 3) 16 3), ([0x31844010], .cmpobg (.reg 16) 17 4),
     ([0x32844010], .cmpobe (.reg 16) 17 4), ([0x33844010], .cmpobge (.reg 16) 17 4),
     ([0x34844010], .cmpobl (.reg 16) 17 4), ([0x35043FF8], .cmpobne (.lit 0) 16 2046),
     ([0x36844010], .cmpoble (.reg 16) 17 4), ([0x371C200C], .bbs (.lit 3) 16 3),
     ([0x38844010], .cmpibno (.reg 16) 17 4), ([0x39844010], .cmpibg (.reg 16) 17 4),
     ([0x3A844010], .cmpibe (.reg 16) 17 4), ([0x3B844010], .cmpibge (.reg 16) 17 4),
     ([0x3C844040], .cmpibl (.reg 16) 17 16), ([0x3D844010], .cmpibne (.reg 16) 17 4),
     ([0x3E844010], .cmpible (.reg 16) 17 4), ([0x3F844010], .cmpibo (.reg 16) 17 4),
     ([0x34FC7000], .cmpobl (.lit 31) 17 1024)] = true := by
  decide

theorem test_decode_mem : decodesTo
    [([0x80945000], .ldob 18 (.base 17)), ([0x82845000], .stob 16 (.base 17)), ([0x84041000], .bx (.base 16)),
     ([0x858C1000], .balx 17 (.base 16)), ([0x86003000, 0x00020000], .callx (.disp 0x20000)),
     ([0x88945000], .ldos 18 (.base 17)), ([0x8A845000], .stos 16 (.base 17)),
     ([0x8C800FFF], .lda 16 (.offset 0xFFF)), ([0x90845000], .ld 16 (.base 17)), ([0x92845000], .st 16 (.base 17)),
     ([0x98945000], .ldl 18 (.base 17)), ([0x9A945000], .stl 18 (.base 17)), ([0xA0A45000], .ldt 20 (.base 17)),
     ([0xA2A45000], .stt 20 (.base 17)), ([0xB0A45000], .ldq 20 (.base 17)), ([0xB2A45000], .stq 20 (.base 17)),
     ([0xC0945000], .ldib 18 (.base 17)), ([0xC2845000], .stib 16 (.base 17)), ([0xC8945000], .ldis 18 (.base 17)),
     ([0xCA845000], .stis 16 (.base 17)), ([0x8C0FE040], .lda 1 (.baseOffset 31 0x40)),
     ([0x8C845000], .lda 16 (.base 17)), ([0x8C801400, 0x00000FF8], .lda 16 (.ipDisp 0xFF8)),
     ([0x8C845D12], .lda 16 (.baseIndex 17 18 .x4)), ([0x8C845E12], .lda 16 (.baseIndex 17 18 .x16)),
     ([0x8C803000, 0x3B001000], .lda 16 (.disp 0x3B001000)),
     ([0x8C07F400, 0xFFFFFFC0], .lda 0 (.baseDisp 31 0xFFFFFFC0)),
     ([0x8C803892, 0x00000100], .lda 16 (.indexDisp 18 .x2 0x100)),
     ([0x8C847D92, 0x00000100], .lda 16 (.baseIndexDisp 17 18 .x8 0x100))] = true := by
  decide

theorem test_decode_logical_and_arithmetic : decodesTo
    [([0x588C0805], .notbit (.lit 5) (.reg 16) (.reg 17)), ([0x58944090], .and (.reg 16) (.reg 17) (.reg 18)),
     ([0x58944110], .andnot (.reg 16) (.reg 17) (.reg 18)), ([0x588C0985], .setbit (.lit 5) (.reg 16) (.reg 17)),
     ([0x58944210], .notand (.reg 16) (.reg 17) (.reg 18)), ([0x58944310], .xor (.reg 16) (.reg 17) (.reg 18)),
     ([0x58944390], .or (.reg 16) (.reg 17) (.reg 18)), ([0x58944410], .nor (.reg 16) (.reg 17) (.reg 18)),
     ([0x58944490], .xnor (.reg 16) (.reg 17) (.reg 18)), ([0x58881510], .not (.reg 16) (.reg 17)),
     ([0x58944590], .ornot (.reg 16) (.reg 17) (.reg 18)), ([0x588C0E05], .clrbit (.lit 5) (.reg 16) (.reg 17)),
     ([0x58944690], .notor (.reg 16) (.reg 17) (.reg 18)), ([0x58944710], .nand (.reg 16) (.reg 17) (.reg 18)),
     ([0x588C0F85], .alterbit (.lit 5) (.reg 16) (.reg 17)), ([0x59840801], .addo (.lit 1) (.reg 16) (.reg 16)),
     ([0x59A4C092], .addi (.reg 18) (.reg 19) (.reg 20)), ([0x59840901], .subo (.lit 1) (.reg 16) (.reg 16)),
     ([0x59B58190], .subi (.reg 16) (.reg 22) (.reg 22)), ([0x598C0C1F], .shro (.lit 31) (.reg 16) (.reg 17)),
     ([0x598C0D01], .shrdi (.lit 1) (.reg 16) (.reg 17)), ([0x598C0D81], .shri (.lit 1) (.reg 16) (.reg 17)),
     ([0x598C0E04], .shlo (.lit 4) (.reg 16) (.reg 17)), ([0x598C0E88], .rotate (.lit 8) (.reg 16) (.reg 17)),
     ([0x598C0F04], .shli (.lit 4) (.reg 16) (.reg 17))] = true := by
  decide

theorem test_decode_compare_and_move : decodesTo
    [([0x5A046010], .cmpo (.reg 16) (.reg 17)), ([0x5A046090], .cmpi (.reg 16) (.reg 17)),
     ([0x5A046110], .concmpo (.reg 16) (.reg 17)), ([0x5A046190], .concmpi (.reg 16) (.reg 17)),
     ([0x5A944210], .cmpinco (.reg 16) (.reg 17) (.reg 18)), ([0x5A944290], .cmpinci (.reg 16) (.reg 17) (.reg 18)),
     ([0x5A944310], .cmpdeco (.reg 16) (.reg 17) (.reg 18)), ([0x5A944390], .cmpdeci (.reg 16) (.reg 17) (.reg 18)),
     ([0x5A046610], .scanbyte (.reg 16) (.reg 17)), ([0x5A042F05], .chkbit (.lit 5) (.reg 16)),
     ([0x5B944010], .addc (.reg 16) (.reg 17) (.reg 18)), ([0x5B944110], .subc (.reg 16) (.reg 17) (.reg 18)),
     ([0x5CF01E00], .mov (.lit 0) (.reg 30)), ([0x5DA01612], .movl (.reg 18) (.reg 20)),
     ([0x5EC01614], .movt (.reg 20) (.reg 24)), ([0x5FA01E00], .movq (.lit 0) (.reg 20)),
     ([0x5C901E1F], .mov (.lit 31) (.reg 18))] = true := by
  decide

theorem test_decode_memory_and_control : decodesTo
    [([0x60046010], .synmov (.reg 16) (.reg 17)), ([0x60046090], .synmovl (.reg 16) (.reg 17)),
     ([0x60046110], .synmovq (.reg 16) (.reg 17)), ([0x60944190], .cmpstr (.reg 16) (.reg 17) (.reg 18)),
     ([0x60944210], .movqstr (.reg 16) (.reg 17) (.reg 18)), ([0x60944290], .movstr (.reg 16) (.reg 17) (.reg 18)),
     ([0x61944010], .atmod (.reg 16) (.reg 17) (.reg 18)), ([0x61944110], .atadd (.reg 16) (.reg 17) (.reg 18)),
     ([0x61881190], .inspacc (.reg 16) (.reg 17)), ([0x61881210], .ldphy (.reg 16) (.reg 17)),
     ([0x61881290], .synld (.reg 16) (.reg 17)), ([0x61944390], .fill (.reg 16) (.reg 17) (.reg 18)),
     ([0x64881010], .spanbit (.reg 16) (.reg 17)), ([0x64881090], .scanbit (.reg 16) (.reg 17)),
     ([0x64944110], .daddc (.reg 16) (.reg 17) (.reg 18)), ([0x64944190], .dsubc (.reg 16) (.reg 17) (.reg 18)),
     ([0x64881210], .dmovt (.reg 16) (.reg 17)), ([0x64840290], .modac (.reg 16) (.reg 16) (.reg 16)),
     ([0x64881310], .condrec (.reg 16) (.reg 17)), ([0x65944010], .modify (.reg 16) (.reg 17) (.reg 18)),
     ([0x65821884], .extract (.lit 4) (.lit 8) (.reg 16)), ([0x65944210], .modtc (.reg 16) (.reg 17) (.reg 18)),
     ([0x65944A80], .modpc (.lit 0) (.reg 17) (.reg 18)), ([0x65881310], .receive (.reg 16) (.reg 17))] = true := by
  decide

theorem test_decode_processor_and_convert : decodesTo
    [([0x66003800], .calls (.lit 0)), ([0x66944110], .send (.reg 16) (.reg 17) (.reg 18)),
     ([0x66003190], .sendserv (.reg 16)), ([0x66003210], .resumprcs (.reg 16)), ([0x66003290], .schedprcs (.reg 16)),
     ([0x66003B00], .saveprcs), ([0x66003410], .condwait (.reg 16)), ([0x66003490], .wait (.reg 16)),
     ([0x66003510], .signal (.reg 16)), ([0x66003D80], .mark), ([0x66003E00], .fmark), ([0x66003E80], .flushreg),
     ([0x66003F80], .syncf), ([0x67944010], .emul (.reg 16) (.reg 17) (.reg 18)),
     ([0x67A48090], .ediv (.reg 16) (.reg 18) (.reg 20)), ([0x67801980], .ldtime (.reg 16)),
     ([0x67881210], .cvtir (.reg 16) (.reg 17)), ([0x67901290], .cvtilr (.reg 16) (.reg 18)),
     ([0x67A48310], .scalerl (.reg 16) (.reg 18) (.reg 20)), ([0x67944390], .scaler (.reg 16) (.reg 17) (.reg 18))] = true := by
  decide

theorem test_decode_floating_point : decodesTo
    [([0x68944010], .atanr (.reg 16) (.reg 17) (.reg 18)), ([0x68944090], .logepr (.reg 16) (.reg 17) (.reg 18)),
     ([0x68944110], .logr (.reg 16) (.reg 17) (.reg 18)), ([0x68944190], .remr (.reg 16) (.reg 17) (.reg 18)),
     ([0x68046210], .cmpor (.reg 16) (.reg 17)), ([0x68046290], .cmpr (.reg 16) (.reg 17)),
     ([0x68881410], .sqrtr (.reg 16) (.reg 17)), ([0x68881490], .expr (.reg 16) (.reg 17)),
     ([0x68881510], .logbnr (.reg 16) (.reg 17)), ([0x68881590], .roundr (.reg 16) (.reg 17)),
     ([0x68881610], .sinr (.reg 16) (.reg 17)), ([0x68881690], .cosr (.reg 16) (.reg 17)),
     ([0x68881710], .tanr (.reg 16) (.reg 17)), ([0x68003790], .classr (.reg 16)),
     ([0x69A48010], .atanrl (.reg 16) (.reg 18) (.reg 20)), ([0x69A48090], .logeprl (.reg 16) (.reg 18) (.reg 20)),
     ([0x69A48110], .logrl (.reg 16) (.reg 18) (.reg 20)), ([0x69A48190], .remrl (.reg 16) (.reg 18) (.reg 20)),
     ([0x6904A210], .cmporl (.reg 16) (.reg 18)), ([0x6904A290], .cmprl (.reg 16) (.reg 18)),
     ([0x69901410], .sqrtrl (.reg 16) (.reg 18)), ([0x69901490], .exprl (.reg 16) (.reg 18)),
     ([0x69901510], .logbnrl (.reg 16) (.reg 18)), ([0x69901590], .roundrl (.reg 16) (.reg 18)),
     ([0x69901610], .sinrl (.reg 16) (.reg 18)), ([0x69901690], .cosrl (.reg 16) (.reg 18)),
     ([0x69901710], .tanrl (.reg 16) (.reg 18)), ([0x69003790], .classrl (.reg 16))] = true := by
  decide

theorem test_decode_multiply_move_and_float : decodesTo
    [([0x6C881010], .cvtri (.reg 16) (.reg 17)), ([0x6C801880], .cvtril (.fp 0) (.reg 16)),
     ([0x6C881110], .cvtzri (.reg 16) (.reg 17)), ([0x6C801980], .cvtzril (.fp 0) (.reg 16)),
     ([0x6C003490], .movr (.reg 16) (.fp 0)), ([0x6D901490], .movrl (.reg 16) (.reg 18)),
     ([0x6EA01880], .movre (.fp 0) (.reg 20)), ([0x6E107900], .cpysre (.fp 0) (.fp 1) (.fp 2)),
     ([0x6E107980], .cpyrsre (.fp 0) (.fp 1) (.fp 2)), ([0x70944090], .mulo (.reg 16) (.reg 17) (.reg 18)),
     ([0x70944410], .remo (.reg 16) (.reg 17) (.reg 18)), ([0x70944590], .divo (.reg 16) (.reg 17) (.reg 18)),
     ([0x74944090], .muli (.reg 16) (.reg 17) (.reg 18)), ([0x74944410], .remi (.reg 16) (.reg 17) (.reg 18)),
     ([0x74944490], .modi (.reg 16) (.reg 17) (.reg 18)), ([0x7452C58A], .divi (.reg 10) (.reg 11) (.reg 10)),
     ([0x78944590], .divr (.reg 16) (.reg 17) (.reg 18)), ([0x78944E16], .mulr .one (.reg 17) (.reg 18)),
     ([0x78944690], .subr (.reg 16) (.reg 17) (.reg 18)), ([0x78944790], .addr (.reg 16) (.reg 17) (.reg 18)),
     ([0x79A48590], .divrl (.reg 16) (.reg 18) (.reg 20)), ([0x79A48610], .mulrl (.reg 16) (.reg 18) (.reg 20)),
     ([0x79A48690], .subrl (.reg 16) (.reg 18) (.reg 20)), ([0x790CA790], .addrl (.reg 16) (.reg 18) (.fp 1)),
     ([0x6C881C90], .movr .zero (.reg 17)), ([0x6C881C96], .movr .one (.reg 17)),
     ([0x78146F80], .addr (.fp 0) (.reg 17) (.fp 2))] = true := by
  decide

-- B0: words that name no instruction, and words with reserved bits.
theorem test_decode_refuses :
    decode [0x8C801800#32] = .error .reservedMode ∧ decode [0x8C845E92#32] = .error .reservedScale ∧
      decode [0x59A4C0F2#32] = .error .reservedBits ∧ decode [0x08000021#32] = .error .reservedBits ∧
      decode [0x00000000#32] = .error .unknownOpcode ∧ decode [0x8C845020#32] = .error .reservedBits ∧
      decode [0x5C800E00#32] = .ok (.mov (.lit 0) (.reg 16), []) ∧ decode [] = .error .truncated ∧
      decode [0x8C803000#32] = .error .truncated ∧ decode [0x0A3FFFFC#32] = .ok (.ret, []) := by
  decide

-- The opcode table's numbering: the displacement word is bits 63:32.
theorem test_decode_table_word :
    decodeTableWord 32 0x59A4C092 = some (.addi (.reg 18) (.reg 19) (.reg 20)) ∧
      decodeTableWord 64 0x3B0010008C803000 = some (.lda 16 (.disp 0x3B001000)) := by
  decide

/-! ### One step on a small state -/

/-- What a vector of 95_test_vectors.md says a step leads to: the ip, AC, the registers and bytes it lists, every other register
being unchanged; or a fault's type and subtype, as the fault record holds them; or a refusal. -/
inductive Expect where
  | next (ip ac : Nat) (regs : List (Nat × Nat)) (mem : List (Nat × List Nat))
  | fault (kind subtype : Nat) (regs : List (Nat × Nat)) (mem : List (Nat × List Nat))
  | refused (r : Refusal)

/-- A state with some registers and bytes, at `ip`, with AC `ac`; the rest as after reset. -/
def small (ip ac : Nat) (regs : List (Nat × Nat)) (mem : List (Nat × List Nat)) : State :=
  let s : State := { State.reset with ip := BitVec.ofNat 32 ip, ac := ArithControls.ofWord (BitVec.ofNat 32 ac) }
  let t := regs.foldl (fun s p => s.setReg (BitVec.ofNat 5 p.1) (BitVec.ofNat 32 p.2)) s
  mem.foldl (fun s p => s.loadBytes (BitVec.ofNat 32 p.1) (p.2.map (BitVec.ofNat 8))) t

/-- Does memory hold these bytes? -/
def holds (t : State) (mem : List (Nat × List Nat)) : Bool :=
  mem.all fun p => (List.range p.2.length).all fun k =>
    t.readByte (BitVec.ofNat 32 (p.1 + k)) == BitVec.ofNat 8 (p.2.getD k 0)

/-- Do the registers `rs` hold what the list says, or else what they held in `s`? -/
def hasRegs (s t : State) (rs : List Nat) (regs : List (Nat × Nat)) : Bool :=
  rs.all fun r =>
    let q : Reg := BitVec.ofNat 5 r
    let word := fun s : State => if isGlobal q then s.globals[bankIndex q] else s.localReg (bankIndex q)
    word t == match regs.find? (fun p => p.1 == r) with
      | some p => BitVec.ofNat 32 p.2
      | none => word s

/-- Does one step from `s`, with the instruction word `w` (and its displacement in the upper half) at the ip, lead where it
should? -/
def runs (s : State) (w : Nat) (e : Expect) : Bool :=
  match step (s.withFetchWord 64 w), e with
  | .next t, .next ip ac regs mem =>
    t.ip == BitVec.ofNat 32 ip && t.ac.toWord == BitVec.ofNat 32 ac && hasRegs s t (List.range 32) regs && holds t mem
  | .next t, .fault kind subtype regs mem =>
    let fp := t.globals[(15 : Fin 16)]
    t.readWord (fp - 8#32) == BitVec.ofNat 32 (kind * 65536 + subtype) && t.readWord (fp - 4#32) == s.ip &&
      hasRegs s t ((List.range 15).map (16 + ·)) regs && holds t mem
  | .refused r, .refused r' => r == r'
  | _, _ => false

/-! #### The vectors of 95_test_vectors.md, B1 to B9 -/

theorem test_data_movement_1 :
    (runs (small 0x1000 0x0 [(17, 0x2000)] [(0x2000, [0x78, 0x56, 0x34, 0x12])]) 0x90845000
      (.next 0x1004 0x0 [(16, 0x12345678)] []) &&
    runs (small 0x1000 0x0 [(16, 0x2000)] [(0x2000, [0x0D, 0xF0, 0xFE, 0xCA])]) 0x90841000
      (.next 0x1004 0x0 [(16, 0xCAFEF00D)] []) &&
    runs (small 0x1000 0x0 [(17, 0x2000)] [(0x2000, [0xFF])]) 0x80945000 (.next 0x1004 0x0 [(18, 0xFF)] []) &&
    runs (small 0x1000 0x0 [(17, 0x2000)] [(0x2000, [0x34, 0xF2])]) 0x88945000
      (.next 0x1004 0x0 [(18, 0xF234)] []) &&
    runs (small 0x1000 0x0 [(17, 0x2000)] [(0x2000, [0xFF])]) 0xC0945000 (.next 0x1004 0x0 [(18, 0xFFFFFFFF)] []) &&
    runs (small 0x1000 0x0 [(17, 0x2000)] [(0x2000, [0x7F])]) 0xC0945000 (.next 0x1004 0x0 [(18, 0x7F)] []) &&
    runs (small 0x1000 0x0 [(17, 0x2000)] [(0x2000, [0x00, 0x80])]) 0xC8945000
      (.next 0x1004 0x0 [(18, 0xFFFF8000)] []) &&
    runs (small 0x1000 0x0 [(17, 0x2000)] [(0x2000, [0x01, 0x00, 0x00, 0x00, 0x02, 0x00, 0x00, 0x00])]) 0x98945000
      (.next 0x1004 0x0 [(18, 0x1), (19, 0x2)] []) &&
    runs (small 0x1000 0x0 [(18, 0x2000)] [(0x2000, [0x01, 0x00, 0x00, 0x00, 0x02, 0x00, 0x00, 0x00])]) 0x98949000
      (.next 0x1004 0x0 [(18, 0x1), (19, 0x2)] []) &&
    runs (small 0x1000 0x0 [(17, 0x2000), (23, 0x77777777)] [(0x2000, [0x01, 0x00, 0x00, 0x00, 0x02, 0x00, 0x00, 0x00, 0x03, 0x00, 0x00, 0x00, 0x04, 0x00, 0x00, 0x00])]) 0xA0A45000
      (.next 0x1004 0x0 [(20, 0x1), (21, 0x2), (22, 0x3)] []) &&
    runs (small 0x1000 0x0 [(17, 0x2000)] [(0x2000, [0x01, 0x00, 0x00, 0x00, 0x02, 0x00, 0x00, 0x00, 0x03, 0x00, 0x00, 0x00, 0x04, 0x00, 0x00, 0x00])]) 0xB0A45000
      (.next 0x1004 0x0 [(20, 0x1), (21, 0x2), (22, 0x3), (23, 0x4)] []) &&
    runs (small 0x1000 0x0 [(16, 0x12345678), (17, 0x2000)] []) 0x92845000
      (.next 0x1004 0x0 [] [(0x2000, [0x78, 0x56, 0x34, 0x12])])) = true := by
  decide +kernel

theorem test_data_movement_2 :
    (runs (small 0x1000 0x0 [(0, 0xFFC0), (31, 0x10000)] []) 0x92F82004
      (.next 0x1004 0x0 [] [(0xFFC4, [0x00, 0x00, 0x01, 0x00])]) &&
    runs (small 0x1000 0x0 [(16, 0x12345678), (17, 0x2000)] []) 0x82845000
      (.next 0x1004 0x0 [] [(0x2000, [0x78])]) &&
    runs (small 0x1000 0x0 [(16, 0x12345678), (17, 0x2000)] []) 0x8A845000
      (.next 0x1004 0x0 [] [(0x2000, [0x78, 0x56])]) &&
    runs (small 0x1000 0x0 [(16, 0xFFFFFF80), (17, 0x2000)] []) 0xC2845000
      (.next 0x1004 0x0 [] [(0x2000, [0x80])]) &&
    runs (small 0x1000 0x0 [(16, 0x80), (17, 0x2000)] []) 0xC2845000 (.fault 3 1 [] [(0x2000, [0x80])]) &&
    runs (small 0x1000 0x1000 [(16, 0x8000), (17, 0x2000)] []) 0xCA845000
      (.next 0x1004 0x1100 [] [(0x2000, [0x00, 0x80])]) &&
    runs (small 0x1000 0x0 [(17, 0x2000), (18, 0x1), (19, 0x2)] []) 0x9A945000
      (.next 0x1004 0x0 [] [(0x2000, [0x01, 0x00, 0x00, 0x00, 0x02, 0x00, 0x00, 0x00])]) &&
    runs (small 0x1000 0x0 [(17, 0x2000), (20, 0x1), (21, 0x2), (22, 0x3), (23, 0xFFFFFFFF)] []) 0xA2A45000
      (.next 0x1004 0x0 [] [(0x2000, [0x01, 0x00, 0x00, 0x00, 0x02, 0x00, 0x00, 0x00, 0x03, 0x00, 0x00, 0x00])]) &&
    runs (small 0x1000 0x0 [(17, 0x2000), (20, 0x1), (21, 0x2), (22, 0x3), (23, 0x4)] []) 0xB2A45000
      (.next 0x1004 0x0 [] [(0x2000, [0x01, 0x00, 0x00, 0x00, 0x02, 0x00, 0x00, 0x00, 0x03, 0x00, 0x00, 0x00, 0x04, 0x00, 0x00, 0x00])]) &&
    runs (small 0x1000 0x0 [(30, 0xDEADBEEF)] []) 0x5CF01E00 (.next 0x1004 0x0 [(30, 0x0)] []) &&
    runs (small 0x1000 0x0 [] []) 0x5C901E1F (.next 0x1004 0x0 [(18, 0x1F)] []) &&
    runs (small 0x1000 0x0 [(18, 0xAAAAAAAA), (19, 0xBBBBBBBB)] []) 0x5DA01612
      (.next 0x1004 0x0 [(20, 0xAAAAAAAA), (21, 0xBBBBBBBB)] [])) = true := by
  decide +kernel

theorem test_data_movement_3 :
    (runs (small 0x1000 0x0 [(20, 0x1), (21, 0x2), (22, 0x3), (23, 0x4), (27, 0x99)] []) 0x5EC01614
      (.next 0x1004 0x0 [(24, 0x1), (25, 0x2), (26, 0x3)] []) &&
    runs (small 0x1000 0x0 [(20, 0x1), (21, 0x2), (22, 0x3), (23, 0x4)] []) 0x5FA01E00
      (.next 0x1004 0x0 [(20, 0x0), (21, 0x0), (22, 0x0), (23, 0x0)] [])) = true := by
  decide +kernel

theorem test_addressing :
    (runs (small 0x1000 0x0 [] []) 0x8C1800D8 (.next 0x1004 0x0 [(3, 0xD8)] []) &&
    runs (small 0x1000 0x0 [] []) 0x8C801800 (.fault 2 1 [] [])) = true := by
  decide +kernel

theorem test_arithmetic_1 :
    (runs (small 0x1000 0x0 [(16, 0xFFFFFFFF)] []) 0x59840801 (.next 0x1004 0x0 [(16, 0x0)] []) &&
    runs (small 0x1000 0x0 [(18, 0x5), (19, 0x7)] []) 0x59A4C092 (.next 0x1004 0x0 [(20, 0xC)] []) &&
    runs (small 0x1000 0x0 [(16, 0x1), (17, 0x7FFFFFFF)] []) 0x59944090 (.fault 3 1 [(18, 0x80000000)] []) &&
    runs (small 0x1000 0x2 [(16, 0xFFFFFFFF), (17, 0x0), (18, 0x55)] []) 0x5B944010
      (.next 0x1004 0x2 [(18, 0x0)] []) &&
    runs (small 0x1000 0x0 [(16, 0x7FFFFFFF), (17, 0x1)] []) 0x5B944010 (.next 0x1004 0x1 [(18, 0x80000000)] []) &&
    runs (small 0x1000 0x0 [(16, 0x0)] []) 0x59840901 (.next 0x1004 0x0 [(16, 0xFFFFFFFF)] []) &&
    runs (small 0x1000 0x0 [(16, 0x3), (22, 0xA)] []) 0x59B58190 (.next 0x1004 0x0 [(22, 0x7)] []) &&
    runs (small 0x1000 0x0 [(16, 0x1), (17, 0x80000000)] []) 0x59944190 (.fault 3 1 [(18, 0x7FFFFFFF)] []) &&
    runs (small 0x1000 0x2 [(16, 0x3), (17, 0x5)] []) 0x5B944110 (.next 0x1004 0x2 [(18, 0x2)] []) &&
    runs (small 0x1000 0x0 [(16, 0x3), (17, 0x5)] []) 0x5B944110 (.next 0x1004 0x2 [(18, 0x1)] []) &&
    runs (small 0x1000 0x0 [(16, 0x10000), (17, 0x10000), (18, 0x5)] []) 0x70944090
      (.next 0x1004 0x0 [(18, 0x0)] []) &&
    runs (small 0x1000 0x0 [(16, 0xFFFFFFFD), (17, 0x4)] []) 0x74944090
      (.next 0x1004 0x0 [(18, 0xFFFFFFF4)] [])) = true := by
  decide +kernel

theorem test_arithmetic_2 :
    (runs (small 0x1000 0x0 [(16, 0x10000), (17, 0x8000)] []) 0x74944090 (.fault 3 1 [(18, 0x80000000)] []) &&
    runs (small 0x1000 0x0 [(16, 0xFFFFFFFF), (17, 0xFFFFFFFF)] []) 0x67944010
      (.next 0x1004 0x0 [(18, 0x1), (19, 0xFFFFFFFE)] []) &&
    runs (small 0x1000 0x0 [(16, 0x2), (17, 0x7)] []) 0x70944590 (.next 0x1004 0x0 [(18, 0x3)] []) &&
    runs (small 0x1000 0x0 [(16, 0x0), (17, 0x7), (18, 0x55)] []) 0x70944590 (.fault 3 2 [] []) &&
    runs (small 0x1000 0x0 [(10, 0x2), (11, 0xFFFFFFF9)] []) 0x7452C58A (.next 0x1004 0x0 [(10, 0xFFFFFFFD)] []) &&
    runs (small 0x1000 0x0 [(16, 0xFFFFFFFF), (17, 0x80000000)] []) 0x74944590 (.fault 3 1 [(18, 0x80000000)] []) &&
    runs (small 0x1000 0x0 [(16, 0x2), (18, 0x3), (19, 0x1)] []) 0x67A48090
      (.next 0x1004 0x0 [(20, 0x1), (21, 0x80000001)] []) &&
    runs (small 0x1000 0x0 [(16, 0x0), (18, 0x3), (19, 0x1)] []) 0x67A48090 (.fault 3 2 [] []) &&
    runs (small 0x1000 0x0 [(16, 0x3), (17, 0x7)] []) 0x70944410 (.next 0x1004 0x0 [(18, 0x1)] []) &&
    runs (small 0x1000 0x0 [(16, 0x2), (17, 0xFFFFFFF9)] []) 0x74944410 (.next 0x1004 0x0 [(18, 0xFFFFFFFF)] []) &&
    runs (small 0x1000 0x0 [(16, 0xFFFFFFFE), (17, 0x7)] []) 0x74944410 (.next 0x1004 0x0 [(18, 0x1)] []) &&
    runs (small 0x1000 0x0 [(16, 0x2), (17, 0xFFFFFFF9)] []) 0x74944490
      (.next 0x1004 0x0 [(18, 0x1)] [])) = true := by
  decide +kernel

theorem test_arithmetic_3 :
    (runs (small 0x1000 0x0 [(16, 0x0), (17, 0x7), (18, 0x55)] []) 0x74944490 (.fault 3 2 [] []) &&
    runs (small 0x1000 0x0 [(16, 0xF000000F)] []) 0x598C0E04 (.next 0x1004 0x0 [(17, 0xF0)] []) &&
    runs (small 0x1000 0x0 [(16, 0xF000000F), (17, 0x55), (18, 0x20)] []) 0x598C0612
      (.next 0x1004 0x0 [(17, 0x0)] []) &&
    runs (small 0x1000 0x0 [(16, 0x80000000)] []) 0x598C0C1F (.next 0x1004 0x0 [(17, 0x1)] []) &&
    runs (small 0x1000 0x0 [(16, 0x80000000), (17, 0x55), (18, 0x100)] []) 0x598C0412
      (.next 0x1004 0x0 [(17, 0x0)] []) &&
    runs (small 0x1000 0x0 [(16, 0xFFFFFFFF)] []) 0x598C0F04 (.next 0x1004 0x0 [(17, 0xFFFFFFF0)] []) &&
    runs (small 0x1000 0x0 [(16, 0xFFFFFFF9)] []) 0x598C0D81 (.next 0x1004 0x0 [(17, 0xFFFFFFFC)] []) &&
    runs (small 0x1000 0x0 [(16, 0x80000000), (18, 0x28)] []) 0x598C0592 (.next 0x1004 0x0 [(17, 0xFFFFFFFF)] []) &&
    runs (small 0x1000 0x0 [(16, 0xFFFFFFF9)] []) 0x598C0D01 (.next 0x1004 0x0 [(17, 0xFFFFFFFD)] []) &&
    runs (small 0x1000 0x0 [(16, 0xFFFFFFF9), (17, 0x55), (18, 0x20)] []) 0x598C0512
      (.next 0x1004 0x0 [(17, 0x0)] []) &&
    runs (small 0x1000 0x0 [(16, 0x12345678)] []) 0x598C0E88 (.next 0x1004 0x0 [(17, 0x34567812)] []) &&
    runs (small 0x1000 0x0 [(16, 0x12345678), (18, 0x24)] []) 0x598C0692
      (.next 0x1004 0x0 [(17, 0x23456781)] [])) = true := by
  decide +kernel

theorem test_logical_1 :
    (runs (small 0x1000 0x0 [(16, 0xF0F0F0F), (17, 0xFF00FF)] []) 0x58944090 (.next 0x1004 0x0 [(18, 0xF000F)] []) &&
    runs (small 0x1000 0x0 [(17, 0x12345678)] []) 0x5894488F (.next 0x1004 0x0 [(18, 0x8)] []) &&
    runs (small 0x1000 0x0 [(16, 0xF0F0F0F), (17, 0xFF00FF)] []) 0x58944110
      (.next 0x1004 0x0 [(18, 0xF000F0)] []) &&
    runs (small 0x1000 0x0 [(16, 0xF0F0F0F), (17, 0xFF00FF)] []) 0x58944210
      (.next 0x1004 0x0 [(18, 0xF000F00)] []) &&
    runs (small 0x1000 0x0 [(16, 0xF0F0F0F), (17, 0xFF00FF)] []) 0x58944710
      (.next 0x1004 0x0 [(18, 0xFFF0FFF0)] []) &&
    runs (small 0x1000 0x0 [(16, 0xF0F0F0F), (17, 0xFF00FF)] []) 0x58944390
      (.next 0x1004 0x0 [(18, 0xFFF0FFF)] []) &&
    runs (small 0x1000 0x0 [(16, 0xF0F0F0F), (17, 0xFF00FF)] []) 0x58944410
      (.next 0x1004 0x0 [(18, 0xF000F000)] []) &&
    runs (small 0x1000 0x0 [(16, 0xF0F0F0F), (17, 0xFF00FF)] []) 0x58944590
      (.next 0x1004 0x0 [(18, 0xF0FFF0FF)] []) &&
    runs (small 0x1000 0x0 [(16, 0xF0F0F0F), (17, 0xFF00FF)] []) 0x58944690
      (.next 0x1004 0x0 [(18, 0xFF0FFF0F)] []) &&
    runs (small 0x1000 0x0 [(16, 0xF0F0F0F), (17, 0xFF00FF)] []) 0x58944310
      (.next 0x1004 0x0 [(18, 0xFF00FF0)] []) &&
    runs (small 0x1000 0x0 [(16, 0xF0F0F0F), (17, 0xFF00FF)] []) 0x58944490
      (.next 0x1004 0x0 [(18, 0xF00FF00F)] []) &&
    runs (small 0x1000 0x0 [(16, 0xF0F0F0F)] []) 0x58881510 (.next 0x1004 0x0 [(17, 0xF0F0F0F0)] [])) = true := by
  decide +kernel

theorem test_logical_2 :
    (runs (small 0x1000 0x0 [] []) 0x58881D00 (.next 0x1004 0x0 [(17, 0xFFFFFFFF)] []) &&
    runs (small 0x1000 0x0 [(16, 0x0)] []) 0x588C0985 (.next 0x1004 0x0 [(17, 0x20)] []) &&
    runs (small 0x1000 0x0 [(16, 0x0), (18, 0x25)] []) 0x588C0192 (.next 0x1004 0x0 [(17, 0x20)] []) &&
    runs (small 0x1000 0x0 [(16, 0xFF)] []) 0x588C0E05 (.next 0x1004 0x0 [(17, 0xDF)] []) &&
    runs (small 0x1000 0x0 [(16, 0x0)] []) 0x588C081F (.next 0x1004 0x0 [(17, 0x80000000)] []) &&
    runs (small 0x1000 0x2 [(16, 0x0)] []) 0x588C0F85 (.next 0x1004 0x2 [(17, 0x20)] []) &&
    runs (small 0x1000 0x0 [(16, 0xFF)] []) 0x588C0F85 (.next 0x1004 0x0 [(17, 0xDF)] []) &&
    runs (small 0x1000 0x4 [(16, 0x20)] []) 0x5A042F05 (.next 0x1004 0x2 [] []) &&
    runs (small 0x1000 0x4 [(16, 0x0)] []) 0x5A042F05 (.next 0x1004 0x0 [] []) &&
    runs (small 0x1000 0x0 [(16, 0x10000)] []) 0x64881090 (.next 0x1004 0x2 [(17, 0x10)] []) &&
    runs (small 0x1000 0x2 [(16, 0x0), (17, 0x5)] []) 0x64881090 (.next 0x1004 0x0 [(17, 0xFFFFFFFF)] []) &&
    runs (small 0x1000 0x0 [(16, 0xFFFEFFFF)] []) 0x64881010 (.next 0x1004 0x2 [(17, 0x10)] [])) = true := by
  decide +kernel

theorem test_logical_3 :
    (runs (small 0x1000 0x2 [(16, 0xFFFFFFFF), (17, 0x5)] []) 0x64881010 (.next 0x1004 0x0 [(17, 0xFFFFFFFF)] []) &&
    runs (small 0x1000 0x0 [(16, 0x12345678)] []) 0x65821884 (.next 0x1004 0x0 [(16, 0x67)] []) &&
    runs (small 0x1000 0x0 [(16, 0x12345678)] []) 0x6582189C (.next 0x1004 0x0 [(16, 0x1)] []) &&
    runs (small 0x1000 0x0 [(16, 0xFF00), (17, 0xABCDEF12), (18, 0x11111111)] []) 0x65944010
      (.next 0x1004 0x0 [(18, 0x1111EF11)] []) &&
    runs (small 0x1000 0x0 [(16, 0x11223344), (17, 0xAA22BBCC)] []) 0x5A046610 (.next 0x1004 0x2 [] []) &&
    runs (small 0x1000 0x2 [(16, 0x11223344), (17, 0x44332211)] []) 0x5A046610
      (.next 0x1004 0x0 [] [])) = true := by
  decide +kernel

theorem test_compare_and_branch_1 :
    (runs (small 0x1000 0x0 [(16, 0x1), (17, 0xFFFFFFFF)] []) 0x5A046010 (.next 0x1004 0x4 [] []) &&
    runs (small 0x1000 0x0 [(16, 0x1), (17, 0xFFFFFFFF)] []) 0x5A046090 (.next 0x1004 0x1 [] []) &&
    runs (small 0x1000 0x0 [(9, 0x10)] []) 0x5A026890 (.next 0x1004 0x2 [] []) &&
    runs (small 0x1000 0x1 [(16, 0x3), (17, 0x5)] []) 0x5A046110 (.next 0x1004 0x2 [] []) &&
    runs (small 0x1000 0x4 [(16, 0x3), (17, 0x5)] []) 0x5A046110 (.next 0x1004 0x4 [] []) &&
    runs (small 0x1000 0x2 [(16, 0xFFFFFFFF), (17, 0x0)] []) 0x5A046190 (.next 0x1004 0x2 [] []) &&
    runs (small 0x1000 0x0 [(16, 0xA), (17, 0x3)] []) 0x5A944210 (.next 0x1004 0x1 [(18, 0x4)] []) &&
    runs (small 0x1000 0x0 [(16, 0x0), (17, 0x7FFFFFFF)] []) 0x5A944290 (.next 0x1004 0x4 [(18, 0x80000000)] []) &&
    runs (small 0x1000 0x0 [(16, 0x0), (17, 0x0)] []) 0x5A944310 (.next 0x1004 0x2 [(18, 0xFFFFFFFF)] []) &&
    runs (small 0x1000 0x0 [(16, 0x0), (17, 0x5)] []) 0x5A944390 (.next 0x1004 0x4 [(18, 0x4)] []) &&
    runs (small 0x1000 0x0 [] []) 0x8000020 (.next 0x1020 0x0 [] []) &&
    runs (small 0x1000 0x0 [] []) 0x8FFFFF8 (.next 0xFF8 0x0 [] [])) = true := by
  decide +kernel

theorem test_compare_and_branch_2 :
    (runs (small 0x1000 0x0 [] []) 0xB000100 (.next 0x1100 0x0 [(30, 0x1004)] []) &&
    runs (small 0x1000 0x0 [(16, 0x2000)] []) 0x84041000 (.next 0x2000 0x0 [] []) &&
    runs (small 0x1000 0x0 [(16, 0x2003)] []) 0x84041000 (.next 0x2000 0x0 [] []) &&
    runs (small 0x1000 0x0 [(16, 0x2000)] []) 0x858C1000 (.next 0x2000 0x0 [(17, 0x1004)] []) &&
    runs (small 0x1000 0x0 [(17, 0x2000)] []) 0x858C5000 (.next 0x2000 0x0 [(17, 0x1004)] []) &&
    runs (small 0x1000 0x0 [] []) 0x10000010 (.next 0x1010 0x0 [] []) &&
    runs (small 0x1000 0x2 [] []) 0x10000010 (.next 0x1004 0x2 [] []) &&
    runs (small 0x1000 0x1 [] []) 0x11000010 (.next 0x1010 0x1 [] []) &&
    runs (small 0x1000 0x4 [] []) 0x11000010 (.next 0x1004 0x4 [] []) &&
    runs (small 0x1000 0x2 [] []) 0x12000010 (.next 0x1010 0x2 [] []) &&
    runs (small 0x1000 0x1 [] []) 0x12000010 (.next 0x1004 0x1 [] []) &&
    runs (small 0x1000 0x2 [] []) 0x13000010 (.next 0x1010 0x2 [] [])) = true := by
  decide +kernel

theorem test_compare_and_branch_3 :
    (runs (small 0x1000 0x4 [] []) 0x13000010 (.next 0x1004 0x4 [] []) &&
    runs (small 0x1000 0x4 [] []) 0x14000010 (.next 0x1010 0x4 [] []) &&
    runs (small 0x1000 0x4 [] []) 0x15000010 (.next 0x1010 0x4 [] []) &&
    runs (small 0x1000 0x0 [] []) 0x15000010 (.next 0x1004 0x0 [] []) &&
    runs (small 0x1000 0x2 [] []) 0x16000010 (.next 0x1010 0x2 [] []) &&
    runs (small 0x1000 0x1 [] []) 0x16000010 (.next 0x1004 0x1 [] []) &&
    runs (small 0x1000 0x4 [] []) 0x17000010 (.next 0x1010 0x4 [] []) &&
    runs (small 0x1000 0x0 [] []) 0x17000010 (.next 0x1004 0x0 [] []) &&
    runs (small 0x1000 0x0 [(16, 0x2), (17, 0x1)] []) 0x31844010 (.next 0x1010 0x1 [] []) &&
    runs (small 0x1000 0x0 [(16, 0x7), (17, 0x7)] []) 0x32844010 (.next 0x1010 0x2 [] []) &&
    runs (small 0x2000 0x0 [(16, 0x7), (17, 0x7)] []) 0x32844FFC (.next 0x2FFC 0x2 [] []) &&
    runs (small 0x1000 0x0 [(16, 0xFFFFFFFF), (17, 0x1)] []) 0x33844010 (.next 0x1010 0x1 [] [])) = true := by
  decide +kernel

theorem test_compare_and_branch_4 :
    (runs (small 0x1000 0x0 [(16, 0x1), (17, 0xFFFFFFFF)] []) 0x34844010 (.next 0x1010 0x4 [] []) &&
    runs (small 0x1000 0x0 [(17, 0x20)] []) 0x34FC7000 (.next 0x0 0x4 [] []) &&
    runs (small 0x1008 0x0 [(16, 0x3)] []) 0x35043FF8 (.next 0x1000 0x4 [] []) &&
    runs (small 0x1008 0x0 [(16, 0x0)] []) 0x35043FF8 (.next 0x100C 0x2 [] []) &&
    runs (small 0x1000 0x0 [(16, 0x1), (17, 0x1)] []) 0x36844010 (.next 0x1010 0x2 [] []) &&
    runs (small 0x1000 0x0 [(16, 0x1), (17, 0x2)] []) 0x38844010 (.next 0x1004 0x4 [] []) &&
    runs (small 0x1000 0x0 [(16, 0x1), (17, 0xFFFFFFFF)] []) 0x39844010 (.next 0x1010 0x1 [] []) &&
    runs (small 0x1000 0x0 [(16, 0x80000000), (17, 0x80000000)] []) 0x3A844010 (.next 0x1010 0x2 [] []) &&
    runs (small 0x1000 0x0 [(16, 0x0), (17, 0xFFFFFFFF)] []) 0x3B844010 (.next 0x1010 0x1 [] []) &&
    runs (small 0x1000 0x0 [(16, 0xFFFFFFFF), (17, 0x1)] []) 0x3C844040 (.next 0x1040 0x4 [] []) &&
    runs (small 0x1000 0x0 [(16, 0x1), (17, 0x2)] []) 0x3D844010 (.next 0x1010 0x4 [] []) &&
    runs (small 0x1000 0x0 [(16, 0x5), (17, 0x1)] []) 0x3E844010 (.next 0x1004 0x1 [] [])) = true := by
  decide +kernel

theorem test_compare_and_branch_5 :
    (runs (small 0x1000 0x0 [(16, 0x5), (17, 0x1)] []) 0x3F844010 (.next 0x1010 0x1 [] []) &&
    runs (small 0x1000 0x2 [(16, 0xFFFFFFFF)] []) 0x20800000 (.next 0x1004 0x2 [(16, 0x0)] []) &&
    runs (small 0x1000 0x1 [(16, 0xFFFFFFFF)] []) 0x21800000 (.next 0x1004 0x1 [(16, 0x1)] []) &&
    runs (small 0x1000 0x2 [(16, 0xFFFFFFFF)] []) 0x22800000 (.next 0x1004 0x2 [(16, 0x1)] []) &&
    runs (small 0x1000 0x1 [(16, 0xFFFFFFFF)] []) 0x22800000 (.next 0x1004 0x1 [(16, 0x0)] []) &&
    runs (small 0x1000 0x4 [(16, 0xFFFFFFFF)] []) 0x23800000 (.next 0x1004 0x4 [(16, 0x0)] []) &&
    runs (small 0x1000 0x4 [(16, 0xFFFFFFFF)] []) 0x24800000 (.next 0x1004 0x4 [(16, 0x1)] []) &&
    runs (small 0x1000 0x1 [(16, 0xFFFFFFFF)] []) 0x25800000 (.next 0x1004 0x1 [(16, 0x1)] []) &&
    runs (small 0x1000 0x0 [(16, 0xFFFFFFFF)] []) 0x25800000 (.next 0x1004 0x0 [(16, 0x0)] []) &&
    runs (small 0x1000 0x2 [(16, 0xFFFFFFFF)] []) 0x26800000 (.next 0x1004 0x2 [(16, 0x1)] []) &&
    runs (small 0x1000 0x4 [(16, 0xFFFFFFFF)] []) 0x27800000 (.next 0x1004 0x4 [(16, 0x1)] []) &&
    runs (small 0x1000 0x0 [(16, 0xFFFFFFFF)] []) 0x27800000 (.next 0x1004 0x0 [(16, 0x0)] [])) = true := by
  decide +kernel

theorem test_compare_and_branch_6 :
    (runs (small 0x1000 0x0 [] []) 0x18000000 (.fault 5 1 [] []) &&
    runs (small 0x1000 0x2 [] []) 0x18000000 (.next 0x1004 0x2 [] []) &&
    runs (small 0x1000 0x1 [] []) 0x19000000 (.fault 5 1 [] []) &&
    runs (small 0x1000 0x2 [] []) 0x1A000000 (.fault 5 1 [] []) &&
    runs (small 0x1000 0x4 [] []) 0x1A000000 (.next 0x1004 0x4 [] []) &&
    runs (small 0x1000 0x4 [] []) 0x1B000000 (.next 0x1004 0x4 [] []) &&
    runs (small 0x1000 0x4 [] []) 0x1C000000 (.fault 5 1 [] []) &&
    runs (small 0x1000 0x2 [] []) 0x1D000000 (.next 0x1004 0x2 [] []) &&
    runs (small 0x1000 0x1 [] []) 0x1D000000 (.fault 5 1 [] []) &&
    runs (small 0x1000 0x1 [] []) 0x1E000000 (.next 0x1004 0x1 [] []) &&
    runs (small 0x1000 0x0 [] []) 0x1F000000 (.next 0x1004 0x0 [] []) &&
    runs (small 0x1000 0x1 [] []) 0x1F000000 (.fault 5 1 [] [])) = true := by
  decide +kernel

theorem test_control :
    (runs (small 0x1000 0x2 [(16, 0x3B001000)] []) 0x64840290 (.next 0x1004 0x3B001002 [(16, 0x2)] []) &&
    runs (small 0x1000 0x3B001102 [(17, 0xFFFFFFFF)] []) 0x64944A80
      (.next 0x1004 0x3B001102 [(18, 0x3B001102)] []) &&
    runs (small 0x1000 0x0 [(16, 0x8000), (17, 0x3)] [(0x8000, [0x05, 0x00, 0x00, 0x00])]) 0x61944110
      (.next 0x1004 0x0 [(18, 0x5)] [(0x8000, [0x08, 0x00, 0x00, 0x00])]) &&
    runs (small 0x1000 0x2 [(16, 0x8003), (17, 0x1)] [(0x8000, [0xFF, 0xFF, 0xFF, 0xFF])]) 0x61944110
      (.next 0x1004 0x2 [(18, 0xFFFFFFFF)] [(0x8000, [0x00, 0x00, 0x00, 0x00])]) &&
    runs (small 0x1000 0x0 [(16, 0x8000), (17, 0xFF00FF), (18, 0x12345678)] [(0x8000, [0xFF, 0xFF, 0x00, 0x00])]) 0x61944010
      (.next 0x1004 0x0 [(18, 0xFFFF)] [(0x8000, [0x78, 0xFF, 0x34, 0x00])]) &&
    runs (small 0x1000 0x0 [] []) 0x66003D80 (.next 0x1004 0x0 [] []) &&
    runs (small 0x1000 0x0 [(16, 0x8000), (17, 0x11223344), (18, 0x6)] []) 0x61944390
      (.next 0x1004 0x0 [] [(0x8000, [0x44, 0x33, 0x22, 0x11, 0x44, 0x33])]) &&
    runs (small 0x1000 0x0 [(16, 0x8000), (17, 0x11223344), (18, 0x0)] []) 0x61944390 (.next 0x1004 0x0 [] []) &&
    runs (small 0x1000 0x0 [(16, 0x9002), (17, 0x8000)] [(0x8000, [0x78, 0x56, 0x34, 0x12])]) 0x60046010
      (.next 0x1004 0x2 [] [(0x9000, [0x78, 0x56, 0x34, 0x12])]) &&
    runs (small 0x1000 0x0 [(16, 0x9000), (17, 0x8000)] [(0x8000, [0x01, 0x00, 0x00, 0x00, 0x02, 0x00, 0x00, 0x00])]) 0x60046090
      (.next 0x1004 0x2 [] [(0x9000, [0x01, 0x00, 0x00, 0x00, 0x02, 0x00, 0x00, 0x00])]) &&
    runs (small 0x1000 0x0 [(16, 0x8001)] [(0x8000, [0x78, 0x56, 0x34, 0x12])]) 0x61881290
      (.next 0x1004 0x2 [(17, 0x12345678)] [])) = true := by
  decide +kernel

theorem test_string_and_decimal :
    (runs (small 0x1000 0x0 [(16, 0x8001), (17, 0x8000), (18, 0x3)] [(0x8000, [0x01, 0x02, 0x03, 0x04])]) 0x60944290
      (.next 0x1004 0x0 [] [(0x8000, [0x01, 0x01, 0x02, 0x03])]) &&
    runs (small 0x1000 0x0 [(16, 0x8000), (17, 0x8001), (18, 0x3)] [(0x8000, [0x01, 0x02, 0x03, 0x04])]) 0x60944290
      (.next 0x1004 0x0 [] [(0x8000, [0x02, 0x03, 0x04, 0x04])]) &&
    runs (small 0x1000 0x0 [(16, 0x9000), (17, 0x8000), (18, 0x4)] [(0x8000, [0x01, 0x02, 0x03, 0x04])]) 0x60944210
      (.next 0x1004 0x0 [] [(0x9000, [0x01, 0x02, 0x03, 0x04])]) &&
    runs (small 0x1000 0x0 [(16, 0x8000), (17, 0x8010), (18, 0x3)] [(0x8000, [0x41, 0x42, 0x43]), (0x8010, [0x41, 0x42, 0x44])]) 0x60944190
      (.next 0x1004 0x4 [] []) &&
    runs (small 0x1000 0x4 [(18, 0x0)] []) 0x60944190 (.next 0x1004 0x2 [] []) &&
    runs (small 0x1000 0x2 [(16, 0x37)] []) 0x64881210 (.next 0x1004 0x0 [(17, 0x37)] []) &&
    runs (small 0x1000 0x0 [(16, 0x3A)] []) 0x64881210 (.next 0x1004 0x2 [(17, 0x3A)] []) &&
    runs (small 0x1000 0x0 [(16, 0x38), (17, 0x37)] []) 0x64944110 (.next 0x1004 0x2 [(18, 0x35)] []) &&
    runs (small 0x1000 0x2 [(16, 0x31), (17, 0x32)] []) 0x64944110 (.next 0x1004 0x0 [(18, 0x34)] []) &&
    runs (small 0x1000 0x2 [(16, 0x38), (17, 0x35)] []) 0x64944190 (.next 0x1004 0x0 [(18, 0x37)] []) &&
    runs (small 0x1000 0x2 [(16, 0x32), (17, 0x37)] []) 0x64944190 (.next 0x1004 0x2 [(18, 0x35)] [])) = true := by
  decide +kernel

theorem test_floating_point_1 :
    (runs (small 0x1000 0x3B001000 [(16, 0x3FC00000), (17, 0x40100000)] []) 0x78944790
      (.next 0x1004 0x3B001000 [(18, 0x40700000)] []) &&
    runs (small 0x1000 0x3B001000 [(16, 0x7F800000), (17, 0xFF800000)] []) 0x78944790 (.fault 4 4 [] []) &&
    runs (small 0x1000 0x3B001000 [(16, 0x3FC00000), (17, 0x40100000)] []) 0x78944690
      (.next 0x1004 0x3B001000 [(18, 0x3F400000)] []) &&
    runs (small 0x1000 0x7B001000 [(16, 0x3FC00000), (17, 0x3FC00000)] []) 0x78944690
      (.next 0x1004 0x7B001000 [(18, 0x80000000)] []) &&
    runs (small 0x1000 0x3B001000 [(16, 0x3FC00000), (17, 0x40100000)] []) 0x78944610
      (.next 0x1004 0x3B001000 [(18, 0x40580000)] []) &&
    runs (small 0x1000 0x3B001000 [(16, 0x40000000), (17, 0x7F7FFFFF)] []) 0x78944610
      (.next 0x1004 0x3B111000 [(18, 0x7F800000)] []) &&
    runs (small 0x1000 0x3B001000 [(16, 0x40100000), (17, 0x3FC00000)] []) 0x78944590
      (.next 0x1004 0x3B101000 [(18, 0x3F2AAAAB)] []) &&
    runs (small 0x1000 0x3B001000 [(16, 0x0), (17, 0x0)] []) 0x78944590 (.fault 4 4 [] []) &&
    runs (small 0x1000 0x3B001000 [(16, 0x40800000)] []) 0x68881410
      (.next 0x1004 0x3B001000 [(17, 0x40000000)] []) &&
    runs (small 0x1000 0x3B001000 [(16, 0xC0800000)] []) 0x68881410 (.fault 4 4 [] []) &&
    runs (small 0x1000 0x3B001000 [(16, 0x40100000)] []) 0x68881590
      (.next 0x1004 0x3B101000 [(17, 0x40000000)] []) &&
    runs (small 0x1000 0x3B001000 [(16, 0x40200000)] []) 0x68881590
      (.next 0x1004 0x3B101000 [(17, 0x40000000)] [])) = true := by
  decide +kernel

theorem test_floating_point_2 :
    (runs (small 0x1000 0x3B001000 [(16, 0x3), (17, 0x3FC00000)] []) 0x67944390
      (.next 0x1004 0x3B001000 [(18, 0x41400000)] []) &&
    runs (small 0x1000 0x3B001000 [(16, 0xFFFFFFFF), (17, 0x3FC00000)] []) 0x67944390
      (.next 0x1004 0x3B001000 [(18, 0x3F400000)] []) &&
    runs (small 0x1000 0x3B001000 [(16, 0x41400000)] []) 0x68881510
      (.next 0x1004 0x3B001000 [(17, 0x40400000)] []) &&
    runs (small 0x1000 0x3B001000 [(16, 0x3F400000)] []) 0x68881510
      (.next 0x1004 0x3B001000 [(17, 0xBF800000)] []) &&
    runs (small 0x1000 0x3B001000 [(16, 0x0)] []) 0x68881610 (.next 0x1004 0x3B001000 [(17, 0x0)] []) &&
    runs (small 0x1000 0x3B001000 [(16, 0x0)] []) 0x68881690 (.next 0x1004 0x3B001000 [(17, 0x3F800000)] []) &&
    runs (small 0x1000 0x3B001000 [(16, 0x3FC00000), (17, 0x40100000)] []) 0x68046290
      (.next 0x1004 0x3B001004 [] []) &&
    runs (small 0x1000 0x3B001004 [(16, 0x40100000), (17, 0x3FC00000)] []) 0x68046290
      (.next 0x1004 0x3B001001 [] []) &&
    runs (small 0x1000 0x3B001000 [(16, 0x7FC00000), (17, 0x3F800000)] []) 0x68046210 (.fault 4 4 [] []) &&
    runs (small 0x1000 0x3B001002 [(16, 0xBF400000)] []) 0x68003790 (.next 0x1004 0x3B001052 [] []) &&
    runs (small 0x1000 0x3B001000 [(16, 0x3)] []) 0x67881210 (.next 0x1004 0x3B001000 [(17, 0x40400000)] []) &&
    runs (small 0x1000 0x3B001000 [(16, 0xFFFFFFFF)] []) 0x67881210
      (.next 0x1004 0x3B001000 [(17, 0xBF800000)] [])) = true := by
  decide +kernel

theorem test_floating_point_3 :
    (runs (small 0x1000 0x3B001000 [(16, 0x0), (17, 0x2)] []) 0x67901290
      (.next 0x1004 0x3B001000 [(18, 0x50000000)] []) &&
    runs (small 0x1000 0x3B001000 [(16, 0x40200000)] []) 0x6C881010 (.next 0x1004 0x3B101000 [(17, 0x2)] []) &&
    runs (small 0x1000 0x3B001000 [(16, 0xC0200000)] []) 0x6C881010
      (.next 0x1004 0x3B101000 [(17, 0xFFFFFFFE)] []) &&
    runs (small 0x1000 0x3B001000 [(16, 0x40700000)] []) 0x6C881110 (.next 0x1004 0x3B101000 [(17, 0x3)] []) &&
    runs (small 0x1000 0x3B001000 [(16, 0xC0700000)] []) 0x6C881110
      (.next 0x1004 0x3B101000 [(17, 0xFFFFFFFD)] []) &&
    runs (small 0x1000 0x3B001000 [(17, 0x55)] []) 0x6C881C90 (.next 0x1004 0x3B001000 [(17, 0x0)] []) &&
    runs (small 0x1000 0x3B001000 [] []) 0x6C881C96 (.next 0x1004 0x3B001000 [(17, 0x3F800000)] [])) = true := by
  decide +kernel

/-! #### Vectors that need more than general registers, and those of B6, B7, B10 and B11 -/

/-- A state that runs `w` next, with the process controls `pc`, in the frame at 0x8000 with sp 0x8050. -/
def framed (pc : Word) (regs : List (Nat × Nat)) (mem : List (Nat × List Nat)) : State :=
  { small 0x1000 0 ([(31, 0x8000), (1, 0x8050), (0, 0x7FC0)] ++ regs) mem with
    pctl := pc, sysProcTable := 0x3000#32, faultTable := 0x600#32, intTable := 0x10400#32, intStack := 0x10000#32 }

/-- Does the step of `w` from `s` lead to a next state with the property `p`? -/
def leads (s : State) (w : Nat) (p : State → Bool) : Bool :=
  match step (s.withFetchWord 64 w) with
  | .next t => p t
  | _ => false

/-- The fault record names this fault, and the handler runs in a frame of status 001. -/
def faulted (kind subtype : Nat) (t : State) : Bool :=
  t.readWord (t.frameBase - 8#32) == BitVec.ofNat 32 (kind * 65536 + subtype) &&
    (t.localReg 0).extractLsb' 0 3 == 1#3

/-- A new frame of 95_test_vectors.md, B6: ip, fp, pfp, sp, and the return address in the caller's r2. -/
def entered (ip fp pfp sp rip : Word) (t : State) : Bool :=
  t.ip == ip && t.frameBase == fp && t.localReg 0 == pfp && t.localReg 1 == sp &&
    match t.cached with
    | f :: _ => (f.regs[(2 : Fin 16)]).val == rip
    | [] => false

-- B5: bbc and bbs (the condition code is left free, U13).
theorem test_bit_branches :
    (leads (small 0x1000 4 [(16, 0xF7)] []) 0x301C200C (fun t => t.ip == 0x100C#32) &&
      leads (small 0x1000 4 [(16, 8)] []) 0x301C200C (fun t => t.ip == 0x1004#32) &&
      leads (small 0x1000 0 [(16, 8), (18, 0x23)] []) 0x3794000C (fun t => t.ip == 0x100C#32) &&
      leads (small 0x1000 2 [(16, 0xF7)] []) 0x371C200C (fun t => t.ip == 0x1004#32)) = true := by
  decide +kernel

-- R228, U11: an overflowing shli sets AC.of.
theorem test_shli_overflow :
    leads (small 0x1000 0x1000 [(16, 0x40000000)] []) 0x598C0F01
      (fun t => t.ac.toWord == 0x1100#32 && t.ip == 0x1004#32) = true := by
  decide +kernel

-- B6: call, callx, calls.
theorem test_calls :
    (leads (small 0x1000 0 [(1, 0x2041), (31, 0x2000)] []) 0x09001000
        (entered 0x2000 0x2080 0x2000 0x20C0 0x1004) &&
      leads (small 0x1000 0 [(1, 0x2040), (31, 0x2000)] []) 0x09001000
        (entered 0x2000 0x2040 0x2000 0x2080 0x1004) &&
      leads (small 0x1000 0 [(1, 0x2050), (31, 0x2000), (16, 0x3002)] []) 0x86041000
        (entered 0x3000 0x2080 0x2000 0x20C0 0x1004) &&
      leads (framed 0 [] [(0x300C, [0, 0x90]), (0x3030, [2, 0x40])]) 0x66003800
        (fun t => entered 0x4000 0x9000 0x8002 0x9040 0x1004 t && t.pctl == 2#32) &&
      leads (framed 2 [(19, 260)] []) 0x66003013 (faulted 7 2)) = true := by
  decide +kernel

-- B6: ret under status 000 and under status 111, with its frame in memory.
theorem test_ret :
    (leads (small 0x2028 0 [(31, 0x8040), (0, 0x8000)] [(0x8000, [0xC0, 0x7F, 0, 0, 0x40, 0x80, 0, 0, 0x14, 0x20, 0, 0, 0, 0, 0, 0,
          0x34, 0x12])]) 0x0A3FFFFC
        (fun t => t.ip == 0x2014#32 && t.frameBase == 0x8000#32 && t.localReg 0 == 0x7FC0#32 &&
          t.localReg 1 == 0x8040#32 && t.localReg 4 == 0x1234#32) &&
      leads { small 0x5000 0 [(31, 0x10040), (0, 0x8007)] [(0x8008, [0x14, 0x20]),
            (0x10030, [2, 0, 3, 0, 0, 0x10, 0, 0x3B])] with pctl := 0xC2002#32, intTable := 0x10400#32 } 0x0A000000
        (fun t => t.ip == 0x2014#32 && t.frameBase == 0x8000#32 && t.ac.toWord == 0x3B001000#32 &&
          t.pctl == 0x30002#32 && t.proc == .idle &&
          match step t, step { t with env := [.interrupt 100] } with
          | .next u, .next v => u == { t with serial := t.serial + 1 } && v.proc == .idleInterrupted
          | _, _ => false)) = true := by
  decide +kernel

-- R346: flushreg writes the caller's set to its frame.
theorem test_flushreg :
    (match step ((framed 2 [(4, 0x1234)] []).withFetchWord 64 0x09001000) with
      | .next t => leads t 0x66003E80 fun u =>
          u.readWord 0x8010#32 == 0x1234#32 && u.readWord 0x8008#32 == 0x1004#32 && u.cached.length == 0
      | _ => false) = true := by
  decide +kernel

-- B7: modpc in supervisor and in user mode, modtc, mark, fmark, syncf.
theorem test_control_words :
    (leads { small 0x1000 0 [(17, 0x1F0000), (18, 0x50000)] [] with intTable := 0x10400#32 } 0x65944A80
        (fun t => t.pctl == 0x52002#32 && t.globals[(2 : Fin 16)] == 0x1F2002#32) &&
      leads (framed 0 [(17, 0x1F0000), (18, 0x1F0000)] []) 0x65944A80 (faulted 10 1) &&
      leads { small 0x1000 0 [(16, 0xFFFFFFFF), (17, 0xFFFFFFFF)] [] with tctl := 0x80#32 } 0x65944210
        (fun t => t.tctl == 0x00FF00FF#32 && t.globals[(2 : Fin 16)] == 0x80#32) &&
      leads { framed 3 [] [] with tctl := 0x80#32 } 0x66003D80
        (fun t => t.tctl == 0x00800080#32 && faulted 1 0x80 t) &&
      leads (framed 2 [] []) 0x66003E00 (fun t => t.ip == 0x1004#32) &&
      leads (framed 3 [] []) 0x66003E00 (fun t => t.tctl == 0x00800000#32 && faulted 1 0x80 t) &&
      leads (framed 2 [] []) 0x66003F80 (fun t => t.ip == 0x1004#32)) = true := by
  decide +kernel

-- B7: synmovq to memory, and the restart message, after which the processor runs nothing.
theorem test_synmovq :
    (leads (small 0x1000 0 [(16, 0x9000), (17, 0x8000)]
          [(0x8000, [0, 1, 2, 3, 4, 5, 6, 7, 8, 9, 10, 11, 12, 13, 14, 15])]) 0x60046110
        (fun t => t.ac.cc == 2#3 && holds t [(0x9000, [0, 1, 2, 3, 4, 5, 6, 7, 8, 9, 10, 11, 12, 13, 14, 15])]) &&
      leads (small 0x1000 0 [(16, 0xFF000010), (17, 0x900)] [(0x900, [0, 0, 0x0D, 0x81, 0x80, 1, 0, 0, 0, 0, 2, 0])])
        0x60046110 (fun t => match step t with
          | .fault (.restart a b) => a == 0x180#32 && b == 0x20000#32
          | _ => false)) = true := by
  decide +kernel

-- R541, R545: reinitialize names the PRCB, the segment table and the ip, and goes on unless the new mode is virtual.
theorem test_reinitialize :
    (leads (small 0x1000 0 [(16, 0xFF000010), (17, 0x900)] [(0x903, [0x93, 0, 0, 2, 0, 0x80, 1, 0, 0, 0, 0x40]), (0x20018, [0, 0, 1])])
        0x60046110 (fun t => t.ip == 0x4000#32 && t.prcb == 0x20000#32 && t.segTable == 0x180#32 &&
          t.globals[(15 : Fin 16)] == 0x10000#32 && !t.restarted) &&
      leads (small 0x1000 0 [(16, 0xFF000010), (17, 0x900)] [(0x903, [0x93, 0, 0, 2]), (0x20005, [4])]) 0x60046110 (fun t =>
        match step t with
          | .fault (.restart _ b) => b == 0x20000#32
          | _ => false)) = true := by
  decide +kernel

-- R375, R390 to R401: process management is refused; ldtime goes on.
theorem test_process_management :
    ([(0x66944110, "send"), (0x66003190, "sendserv"), (0x65881310, "receive"), (0x64881310, "condrec"),
        (0x66003510, "signal"), (0x66003490, "wait"), (0x66003410, "condwait"), (0x66003290, "schedprcs"),
        (0x66003B00, "saveprcs"), (0x66003210, "resumprcs")].all (fun p =>
          runs (small 0x1000 0 [] []) p.1 (.refused (.processManagement p.2))) &&
      runs (small 0x1000 0 [] []) 0x61881210 (.refused (.physicalModeUndefined "ldphy")) &&
      runs (small 0x1000 0 [] []) 0x61881190 (.refused (.physicalModeUndefined "inspacc")) &&
      leads (framed 0 [] []) 0x66003210 (faulted 10 1) &&
      leads (small 0x1000 0 [] []) 0x67801980 (fun t => t.ip == 0x1004#32)) = true := by
  decide +kernel

-- B8: comparing strings the other way round and in part.
theorem test_cmpstr_more :
    (runs (small 0x1000 0 [(16, 0x8010), (17, 0x8000), (18, 3)] [(0x8000, [0x41, 0x42, 0x43]), (0x8010, [0x41, 0x42, 0x44])])
        0x60944190 (.next 0x1004 1 [] []) &&
      runs (small 0x1000 0 [(16, 0x8000), (17, 0x8010), (18, 2)] [(0x8000, [0x41, 0x42, 0x43]), (0x8010, [0x41, 0x42, 0x44])])
        0x60944190 (.next 0x1004 2 [] [])) = true := by
  decide +kernel

-- B9: floating-point registers, an undefined AC.as, an unfit conversion, and the long reals of the same numbers.
theorem test_floating_point_registers :
    (leads (small 0x1000 0x3B001000 [(16, 0x3FC00000)] []) 0x6C003490
        (fun t => t.fps[(0 : Fin 4)] == 0x3FFFC000000000000000#80) &&
      leads { small 0x1000 0 [] [] with fps := #v[0x3FFFC000000000000000#80, 0, 0, 0] } 0x6C881C80
        (fun t => t.globals[(1 : Fin 16)] == 0x3FC00000#32) &&
      leads { small 0x1000 0 [(23, 7)] [] with fps := #v[0x3FFFC000000000000000#80, 0, 0, 0] } 0x6EA01880
        (fun t => hasRegs t t (List.range 32) [(20, 0), (21, 0xC0000000), (22, 0x3FFF), (23, 7)]) &&
      leads { small 0x1000 0 [] [] with fps := #v[0x40008000000000000000#80, 0xBFFF8000000000000000#80, 0, 0] }
        0x6E107900 (fun t => t.fps[(2 : Fin 4)] == 0xC0008000000000000000#80) &&
      leads { small 0x1000 0 [] [] with fps := #v[0x40008000000000000000#80, 0xBFFF8000000000000000#80, 0, 0] }
        0x6E107980 (fun t => t.fps[(2 : Fin 4)] == 0x40008000000000000000#80) &&
      leads { small 0x1000 0x3B001000 [(17, 0x40100000)] [] with fps := #v[0x3FFFC000000000000000#80, 0, 0, 0] } 0x78146F80
        (fun t => t.fps[(2 : Fin 4)] == 0x4000F000000000000000#80) &&
      leads (small 0x1000 0x3B001000 [(16, 0x40000000), (17, 0x40E00000)] []) 0x68944190
        (fun t => t.globals[(2 : Fin 16)] == 0x3F800000#32) &&
      leads (small 0x1000 0x3B001000 [(16, 0x50000001)] []) 0x6C881010
        (fun t => t.ac.toWord == 0x3B001100#32 && t.globals[(1 : Fin 16)] == 0x400#32)) = true := by
  decide +kernel

theorem test_long_reals :
    ([(0x79A48790, 0x3FF80000, 0x40020000, 0x400E0000), (0x79A48690, 0x3FF80000, 0x40020000, 0x3FE80000),
        (0x79A48610, 0x3FF80000, 0x40020000, 0x400B0000), (0x79A48590, 0x3FE80000, 0x3FF80000, 0x40000000),
        (0x69A48190, 0x40000000, 0x401C0000, 0x3FF00000)].all (fun p =>
          leads (small 0x1000 0x3F001000 [(17, p.2.1), (19, p.2.2.1)] []) p.1 fun t =>
            t.globals[(4 : Fin 16)] == 0#32 && t.globals[(5 : Fin 16)] == BitVec.ofNat 32 p.2.2.2) &&
      [(0x69901410, 0x40100000, 0x40000000), (0x69901590, 0x40040000, 0x40000000), (0x69901510, 0x40280000, 0x40080000),
        (0x69901610, 0, 0), (0x69901690, 0, 0x3FF00000), (0x69901710, 0, 0), (0x69901490, 0, 0),
        (0x6D901490, 0x12345678, 0x12345678)].all (fun p =>
          leads (small 0x1000 0x3F001000 [(17, p.2.1)] []) p.1 fun t =>
            t.globals[(2 : Fin 16)] == 0#32 && t.globals[(3 : Fin 16)] == BitVec.ofNat 32 p.2.2)) = true := by
  decide +kernel

theorem test_long_reals_more :
    (leads (small 0x1000 0x3F001000 [(16, 3), (19, 0x3FF80000)] []) 0x67A48310
        (fun t => t.globals[(5 : Fin 16)] == 0x40280000#32) &&
      leads (small 0x1000 0 [(17, 0x3FF80000), (19, 0x40020000)] []) 0x6904A290 (fun t => t.ac.cc == 4#3) &&
      leads (small 0x1000 0 [(17, 0x40020000), (19, 0x3FF80000)] []) 0x6904A210 (fun t => t.ac.cc == 1#3) &&
      leads (small 0x1000 0 [(17, 0xBFE80000)] []) 0x69003790 (fun t => t.ac.ast == 0b1010#4) &&
      leads { small 0x1000 0x3F001000 [] [] with fps := #v[0x4000A000000000000000#80, 0, 0, 0] } 0x6C801880
        (fun t => t.globals[(0 : Fin 16)] == 2#32 && t.globals[(1 : Fin 16)] == 0#32) &&
      leads { small 0x1000 0x3F001000 [] [] with fps := #v[0xC000F000000000000000#80, 0, 0, 0] } 0x6C801980
        (fun t => t.globals[(0 : Fin 16)] == 0xFFFFFFFD#32 && t.globals[(1 : Fin 16)] == 0xFFFFFFFF#32)) = true := by
  decide +kernel

-- B10: the fault entry of R512, and the interrupt arrival, posting and entry of R530 and R533.
theorem test_fault_entry :
    leads { framed 2 [(16, 0x7FFFFFFF)] [(0x618, [0, 0x60])] with ip := 0x5008#32 } 0x598C0881
      (fun t => entered 0x6000 0x80C0 0x8001 0x8100 0x500C t && t.readWord 0x80BC#32 == 0x5008#32 &&
        t.readWord 0x80B8#32 == 0x30001#32 && t.readWord 0x80B4#32 == 0#32 && t.readWord 0x80B0#32 == 2#32 &&
        t.globals[(1 : Fin 16)] == 0x80000000#32 && t.pctl == 2#32) = true := by
  decide +kernel

-- R513: a bad access on the second word of a fault's entry is an override fault; on that of the override fault, a system error.
theorem test_fault_escalation :
    (leads { framed 2 [(16, 0x7FFFFFFF)] [(0x600, [0, 0x60])] with memMap := [⟨0x61C, 4, .bad⟩] } 0x598C0881
        (fun t => entered 0x6000 0x80C0 0x8001 0x8100 0x1004 t && t.readWord 0x80B8#32 == 0x801#32 &&
          t.readWord 0x80AC#32 == 0x30001#32 && t.pctl == 2#32) &&
      leads { framed 2 [(16, 0x7FFFFFFF)] [(0x107E4, [0, 0x70])] with memMap := [⟨0x604, 0x20, .bad⟩] } 0x598C0881
        (fun t => t.ip == 0x7000#32 && t.pctl.getLsbD 12 && t.readWord 164#32 == 0x801#32 &&
          t.readWord 152#32 == 0x30001#32)) = true := by
  decide +kernel

theorem test_interrupt_entry :
    (leads { framed 0x30002 [] [(0x10594, [0, 0x50])] with
          ip := 0x2014#32, env := [.interrupt 100], ac := .ofWord 0x3B001000#32 } 0
        (fun t => entered 0x5000 0x10040 0x8007 0x10080 0x2014 t && t.pctl == 0xC2002#32 &&
          holds t [(0x10030, [2, 0, 3, 0, 0, 0x10, 0, 0x3B, 0x64, 0, 0, 0])]) &&
      leads { framed 0xC0002 [] [] with env := [.interrupt 100] } 0
        (fun t => t.ip == 0x1000#32 && t.readWord 0x10410#32 == 0x10#32 && t.readWord 0x10400#32 == 0x1000#32) &&
      leads { framed 0x1F0002 [] [] with env := [.interrupt 247] } 0
        (fun t => t.readWord 0x10420#32 == 0x800000#32 && t.readWord 0x10400#32 == 0x40000000#32)) = true := by
  decide +kernel

theorem test_pending_interrupt :
    leads { framed 0x1F0002 [(17, 0x1F0000), (18, 0x50000)]
          [(0x10401, [0x10]), (0x10410, [0x10]), (0x10594, [0, 0x50])] with tctl := 0 } 0x65944A80
      (fun t => t.ip == 0x5000#32 && t.readWord 0x10410#32 == 0#32 && t.readWord 0x10400#32 == 0#32) = true := by
  decide +kernel

/-- The state at the first instruction, as B11 lists it. -/
def bootsAs (ip fp ints faults controls : Word) (s : State) : Bool :=
  s.ip == ip && s.globals[(15 : Fin 16)] == fp && s.pctl == 0x1F2002#32 && s.intTable == ints && s.faultTable == faults &&
    s.procControls == controls

-- B11: the initial memory image; a self test that fails, or a wrong checksum, stops the processor (U30).
theorem test_boot :
    bootsAs 0x400 0x10000 0x10400 0x600 8 (boot true (small 0 0 [] [(0, [0x80, 1, 0, 0, 0, 2, 0, 0, 0, 0, 0, 0, 0, 4, 0, 0, 0x80, 0xF8, 0xFF, 0xFF]),
        (0x1C, [0xFF, 0xFF, 0xFF, 0xFF]), (0x204, [8]), (0x215, [4, 1]), (0x21A, [1]), (0x229, [6])]).mem resetMemMap) = true ∧
      (boot false Memory.empty resetMemMap).proc = .stopped ∧
      (boot true (Memory.empty.write 31 1) resetMemMap).proc = .stopped := by
  decide +kernel

theorem test_reset_is_boot_of_nothing : boot true Memory.empty resetMemMap = State.reset := by
  decide +kernel

/-! ### A state for the hypotheses of each claim -/

/-- A state in supervisor mode, everything below 0xFF000000 RAM. -/
def plain : State := small 0x1000 0 [] []

/-- The same in user mode. -/
def user : State := { plain with pctl := 0#32 }

/-- A state with a hole in its address space, from 0x5000 to 0x5FFF. -/
def holed : State := { plain with memMap := [{ base := 0x5000, size := 0x1000, kind := .bad }] }

/-- A state with four register sets on the chip: the current frame at 0x8000 and three before it. -/
def fullCache : State :=
  { framed 0x30002 [] [(0x618, [0, 0x60])] with
    cached := [⟨0x7FC0#32, Vector.replicate 16 (.word 1#32)⟩, ⟨0x7F80#32, Vector.replicate 16 (.word 2#32)⟩,
      ⟨0x7F40#32, Vector.replicate 16 (.word 3#32)⟩] }

/-- A state with every floating-point exception masked: 1.5 in g0, 0.5 in g1, a double 1.5 in g4 and g5, 1.5 in fp0. -/
def masked : State :=
  { small 0x1000 0x1F001000 [(16, 0x3FC00000), (17, 0x3F000000), (20, 0), (21, 0x3FF80000), (24, 0x3FC00000), (25, 0x80000000), (26, 0x3FFF)] [] with
    fps := #v[0x3FFFC000000000000000#80, 0#80, 0#80, 0#80] }

theorem witness_EncodeThenDecode :
    (Instr.movr (.reserved 4) (.reserved 31)).encodable = true ∧
      (Instr.ld 31 (.baseIndexDisp 31 31 .x16 0xFFFFFFFF#32)).encodable = true := by
  decide

theorem witness_InstructionLength :
    decode [0x8C803000#32, 0x1234#32, 7#32] = .ok (.lda 16 (.disp 0x1234), [7#32]) ∧
      decode [0x8C801400#32, 0x1234#32, 7#32] = .ok (.lda 16 (.ipDisp 0x1234), [7#32]) ∧
      decode [0x8C845D12#32, 7#32] = .ok (.lda 16 (.baseIndex 17 18 .x4), [7#32]) ∧
      decode [0x8C845000#32, 7#32] = .ok (.lda 16 (.base 17), [7#32]) ∧ decode [0x08000020#32, 7#32] = .ok (.b 8, [7#32]) := by
  decide

theorem unused_ctrl_opcode : ReservedWord 0x00000000#32 := by
  right
  intro i
  left
  have h : opcodeOf 0x00000000#32 = 0 := by decide
  rw [h]
  cases i <;> first | (simp [encode]; done) | (rename_i m; cases m <;> simp [encode, memWords])

theorem witness_ReservedEncodings :
    (ReservedWord 0x8C801800#32 ∧ (plain.withFetchWord 32 0x8C801800).fetchWord plain.ip = .ok 0x8C801800#32) ∧
      (ReservedWord 0x8C845E92#32 ∧ (plain.withFetchWord 32 0x8C845E92).fetchWord plain.ip = .ok 0x8C845E92#32) ∧
      (ReservedWord 0x8C847F92#32 ∧ (plain.withFetchWord 64 0x8C847F92).fetchWord (plain.ip + 4#32) = .ok 0#32) ∧
      (∃ i, opcodeOf ((encode i).headD 0) = opcodeOf 0x08000021#32) ∧ (0x08000021#32 : Word).extractLsb' 0 2 ≠ 0#2 ∧
      (∃ i, opcodeOf ((encode i).headD 0) = opcodeOf 0x59A4C0F2#32 ∧
        regOpcodeOf ((encode i).headD 0) = regOpcodeOf 0x59A4C0F2#32) ∧ (0x59A4C0F2#32 : Word).extractLsb' 5 2 ≠ 0#2 ∧
      (∃ i, opcodeOf ((encode i).headD 0) = opcodeOf 0x8C845020#32) ∧ (0x8C845020#32 : Word).extractLsb' 5 2 ≠ 0#2 :=
  ⟨⟨.inl ⟨⟨.lda 16 (.base 17), by decide⟩, by decide⟩, by decide⟩,
    ⟨.inl ⟨⟨.lda 16 (.base 17), by decide⟩, by decide⟩, by decide⟩,
    ⟨.inl ⟨⟨.lda 16 (.base 17), by decide⟩, by decide⟩, by decide⟩,
    ⟨.b 0, by decide⟩, by decide, ⟨.addi (.reg 0) (.reg 0) (.reg 0), by decide⟩, by decide, ⟨.lda 16 (.base 17), by decide⟩,
    by decide⟩

theorem witness_StepRunsDecodedInstruction :
    let s := plain.withFetchWord 32 0x5C801E00
    s.restarted = false ∧ s.proc ≠ .stopped ∧ s.proc ≠ .idle ∧ s.fetchWord s.ip = .ok 0x5C801E00#32 ∧ hasDisplacement 0x5C801E00#32 = false ∧
      decode [0x5C801E00#32, 0#32] = .ok (.mov (.lit 0) (.reg 16), [0#32]) ∧ s.env = [] ∧
      (∃ t, exec (.mov (.lit 0) (.reg 16)) s.begin = .next t ∧ t.te = false) ∧
      ({ s with proc := .stopped } : State).proc = .stopped ∧ ({ s with env := [.quiet] } : State).env = [.quiet] ∧
      ({ s with proc := .idle, env := [.interrupt 100] } : State).restarted = false := by
  refine ⟨by decide, by decide, by decide, by decide, by decide, by decide, by decide, ⟨_, rfl, by decide⟩, rfl, rfl, rfl⟩

theorem witness_InterruptRequestServedOrPosted :
    (let s := { framed 0x30002 [] [] with env := [.interrupt 100] };
      s.restarted = false ∧ s.proc ≠ .stopped ∧ s.readable s.intTable 36 = true ∧ s.ramAt s.intTable 36 ∧
        Serves s 100 ∧ ∃ u, (s.withEnv []).interruptEntry 100 s.ip = .ok u) ∧
      (let s := { framed 0xC0002 [] [] with env := [.interrupt 100] };
        s.readable s.intTable 36 = true ∧ s.ramAt s.intTable 36 ∧
          ¬ Serves s 100) := by
  simp only [State.ramAt, Serves]
  refine ⟨⟨by decide, by decide, by decide +kernel, by decide +kernel, by decide, _, rfl⟩, by decide +kernel,
    by decide +kernel, by decide⟩

theorem witness_StepKeepsInvariant :
    (plain.withFetchWord 32 0x5C801E00).Inv ∧ ∃ t, step (plain.withFetchWord 32 0x5C801E00) = .next t :=
  ⟨⟨by decide +kernel, by decide, by decide, by decide⟩, _, rfl⟩

theorem witness_UserModeKeepsProcessControls :
    user.supervisor = false ∧ (∃ t, exec (.mov (.lit 0) (.reg 16)) user = .next t) ∧
      ∃ t, exec (.modpc (.lit 0) (.lit 0) (.reg 16)) user = .next t :=
  ⟨by decide, ⟨_, rfl⟩, _, rfl⟩

theorem readable_everywhere (s : State) (h : s.memMap = resetMemMap) (x : Word) (n : Nat) : s.readable x n = true := by
  induction n generalizing x with
  | zero => rfl
  | succ n ih =>
    have hk : kindAt s.memMap x.toNat ≠ .bad := by
      rw [h]
      unfold kindAt resetMemMap
      simp only [List.find?]
      split <;> simp_all
      split at * <;> simp_all
      subst_vars
      decide
    simp [State.readable, ih, hk]

theorem witness_BootFollowsMemoryImage :
    (∀ x, State.readable { State.reset with mem := Memory.empty, memMap := resetMemMap } x 4 = true) ∧
      checksumFrom 0 0 (State.readWords { State.reset with mem := Memory.empty, memMap := resetMemMap } 0#32 8) = 0 ∧
      checksumFrom 0 0 (State.readWords { State.reset with mem := Memory.empty.write 31 1, memMap := resetMemMap } 0#32 8)
        ≠ 0 :=
  ⟨fun x => readable_everywhere _ rfl x 4, by decide, by decide⟩

theorem witness_StoredWordsReadBack :
    plain.ramAt 0xFEFFFFF0#32 16 ∧ plain.mem.wf = true ∧ plain.ramAt 0x2000#32 4 ∧ (0x2000#32 : Word) &&& 3#32 = 0#32 ∧
      plain.staleAt 0x2000#32 = [] ∧ (plain.writeWord 0x2000#32 5#32).staleAt 0x2000#32 ≠ [] ∧
      (messageOf 0x89000000#32 0#32 0#32 0#32).type = 0x89 ∧ plain.restarted = false ∧ plain.proc ≠ .stopped ∧
      ({ plain with env := [.extWrite 0x2001#32 7#8] } : State).env = [.extWrite 0x2001#32 7#8] ∧
      kindAt plain.memMap 0x2001 = .ram ∧ kindAt plain.memMap 0xFF000000 ≠ .ram := by
  simp only [State.ramAt]
  decide +kernel

theorem witness_LoadsWriteTheirRegisters :
    holed.readable (effectiveAddress holed (.offset 0xFFC)) 16 = true ∧
      holed.readable (effectiveAddress holed (.disp 0x4FFF#32)) 1 = true ∧
      holed.readable (effectiveAddress holed (.disp 0x4FFF#32)) 2 = false ∧
      holed.readable (effectiveAddress holed (.disp 0x5FFF#32)) 1 = false ∧
      holed.readable (effectiveAddress holed (.disp 0x6000#32)) 12 = true ∧ (30#5 : Reg).toNat % 2 = 0 ∧
      (28#5 : Reg).toNat % 4 = 0 := by
  decide

theorem witness_StoresWriteOnlyTheirBytes :
    (let fits := fun (v : Word) (n : Nat) => -(2 ^ n : Int) ≤ v.toInt ∧ v.toInt < 2 ^ n;
      fits 0xFFFFFF80#32 7 ∧ ¬ fits 0x80#32 7 ∧ fits 0x7FFF#32 15 ∧ ¬ fits 0xFFFF7FFF#32 15) ∧ plain.ac.om = false ∧
      masked.ac.om = true ∧ (30#5 : Reg).toNat % 2 = 0 ∧ (28#5 : Reg).toNat % 4 = 0 := by
  decide

theorem witness_MovesCopyTheirSource :
    (30#5 : Reg).toNat % 2 = 0 ∧ (18#5 : Reg).toNat % 2 = 0 ∧ (28#5 : Reg).toNat % 4 = 0 ∧ (0#5 : Reg).toNat % 4 = 0 := by
  decide

theorem witness_RegistersAreSeparate : (3#5 : Reg) ≠ 2#5 ∧ (19#5 : Reg) ≠ 3#5 := by decide

theorem witness_MisalignedGroupsAreRefused : (31#5 : Reg).toNat % 2 ≠ 0 ∧ (30#5 : Reg).toNat % 4 ≠ 0 := by decide

theorem witness_IntegerOperationsReportOverflow :
    (let fits := fun n : Int => -(2 ^ 31 : Int) ≤ n ∧ n < 2 ^ 31;
      let s := small 0 0 [(16, 0x7FFFFFFF), (17, 1), (18, 0x80000000)] [];
      fits ((srcVal s (.reg 18)).toInt + (srcVal s (.reg 17)).toInt) ∧
        ¬ fits ((srcVal s (.reg 16)).toInt + (srcVal s (.reg 17)).toInt) ∧ s.ac.om = false ∧
        fits ((srcVal s (.reg 18)).toInt * 2 ^ min (srcVal s (.lit 0)).toNat 32) ∧
        ¬ fits ((srcVal s (.reg 17)).toInt * 2 ^ min (srcVal s (.lit 31)).toNat 32)) ∧ masked.ac.om = true := by
  decide

theorem witness_DivisionsOfNonzeroDivisors :
    let s := small 0 0 [(16, 0xFFFFFFFF), (17, 0x80000000), (18, 7)] []
    srcVal s (.reg 16) ≠ 0#32 ∧ (srcVal s (.reg 17)).toInt = -2 ^ 31 ∧ (srcVal s (.reg 16)).toInt = -1 ∧
      srcVal s (.reg 18) ≠ 0#32 := by
  decide

theorem witness_ExtendedMultiplyAndDivide :
    let s := small 0 0 [(16, 2), (18, 0xFFFFFFFF), (19, 1), (20, 0), (21, 2)] []
    (20#5 : Reg).toNat % 2 = 0 ∧ (srcVal s (.reg 16)).toNat ≠ 0 ∧
      ((s.readReg 18#5).toNat + 2 ^ 32 * (s.readReg 19#5).toNat) / 2 < 2 ^ 32 ∧
      ¬ ((s.readReg 20#5).toNat + 2 ^ 32 * (s.readReg 21#5).toNat) / 2 < 2 ^ 32 ∧ srcVal s (.lit 0) = 0#32 := by
  decide

theorem witness_BitOperations :
    let s := small 0 0 [(16, 0x80000000), (17, 0x11223344), (18, 0xAA22BBCC), (19, 0x44332211), (20, 0), (21, 32)] []
    (∃ k < 4, (srcVal s (.reg 17)).extractLsb' (8 * k) 8 = (srcVal s (.reg 18)).extractLsb' (8 * k) 8) ∧
      (∀ k < 4, (srcVal s (.reg 17)).extractLsb' (8 * k) 8 ≠ (srcVal s (.reg 19)).extractLsb' (8 * k) 8) ∧
      (srcVal s (.reg 16)).getLsbD 31 = true ∧ (∀ k < 32, (srcVal s (.reg 20)).getLsbD k ≠ true) ∧
      ¬ (srcVal s (.reg 21)).toNat < 32 := by
  decide

theorem witness_BranchOpcodes :
    ((0x08000020#32 : Word).extractLsb' 24 8).toNat = 0x08 ∧ (0x08000020#32 : Word).extractLsb' 0 2 = 0#2 ∧
      ((0x17FFFFFC#32 : Word).extractLsb' 24 8).toNat = 0x17 ∧ ((0x31844010#32 : Word).extractLsb' 24 8).toNat = 0x31 ∧
      (0x31844010#32 : Word).extractLsb' 0 2 = 0#2 ∧ ((0x27800000#32 : Word).extractLsb' 24 8).toNat = 0x27 ∧
      ((0x1F000000#32 : Word).extractLsb' 24 8).toNat = 0x1F := by
  decide

theorem witness_TestIfFields :
    let w := 0x27800000#32
    let u := 0x27807FFC#32
    0x20 ≤ (w.extractLsb' 24 8).toNat ∧ (w.extractLsb' 24 8).toNat ≤ 0x27 ∧ w &&& 0xFFF80003#32 = u &&& 0xFFF80003#32 ∧
      w ≠ u ∧ w.extractLsb' 0 2 = 0#2 ∧ 0x20 ≤ ((0x20000000#32 : Word).extractLsb' 24 8).toNat := by
  decide

theorem witness_ConditionalBranches :
    (∀ row ∈ branchIfRows, (∃ c, conditionTrue row.2.2 c = true) ∧ ∃ c, conditionTrue row.2.2 c = false) ∧
      (ArithControls.ofWord 5#32).cc = 5#3 := by
  refine ⟨?_, by decide⟩
  intro row h
  simp only [branchIfRows, List.mem_cons, List.not_mem_nil, or_false] at h
  rcases h with rfl | rfl | rfl | rfl | rfl | rfl | rfl | rfl <;>
    first
    | exact ⟨⟨7#3, by decide⟩, 0#3, by decide⟩
    | exact ⟨⟨0#3, by decide⟩, 7#3, by decide⟩

theorem witness_CallsEnterNewFrames :
    (framed 2 [] []).cached.length ≤ cacheDepth ∧ fullCache.cached.length ≤ cacheDepth ∧
      fullCache.flushed = [⟨0x7F40#32, Vector.replicate 16 (.word 3#32)⟩] ∧ fullCache.ramAt 0x7F40#32 64 ∧
      (∀ f ∈ fullCache.flushed, 64 ≤ (0x8000#32 - f.frame : Word).toNat) := by
  simp only [State.ramAt]
  decide +kernel

theorem witness_SystemCalls :
    259 < (srcVal (framed 0 [(16, 260)] []) (.reg 16)).toNat ∧
      (let s := framed 0 [(16, 259)] [(0x343C, [0, 0x41]), (0x3030, [2, 0x40]), (0x3034, [1]), (0x300C, [1, 0x90])];
        (srcVal s (.reg 16)).toNat ≤ 259 ∧ s.readable 0x343C#32 4 = true ∧
          (s.readWord 0x343C#32).extractLsb' 0 2 = 0b00#2 ∧ s.supervisor = false ∧
          (s.readWord 0x3030#32).extractLsb' 0 2 = 0b10#2 ∧ s.readable 0x300C#32 4 = true ∧
          (s.readWord 0x3034#32).extractLsb' 0 2 = 0b01#2) ∧ (framed 2 [] []).supervisor = true := by
  decide +kernel

theorem witness_ReturnsResumeThePreviousFrame :
    let s := fun r0 : Nat => small 0x1000 0 [(0, r0), (31, 0x8040)] []
    (∀ r0 ∈ [0x8000, 0x8001, 0x8002, 0x8003, 0x8004, 0x8006, 0x8007],
      (s r0).mem.wf = true ∧ NoPrereturn (s r0) ∧
        PreviousFrame (s r0) (fun i => (s r0).readWord (0x8000#32 + BitVec.ofNat 32 (4 * i.val))) []) ∧
      (s 0x8007).readable (0x8040#32 - 16#32) 8 = true ∧ (s 0x8007).readable (s 0x8007).intTable 4 = true ∧
      (s 0x8007).readWord (s 0x8007).intTable = 0#32 ∧ (small 0x1000 0 [(0, 0x8007)] []).supervisor = true ∧
      (s 0x8007).proc = .idleInterrupted ∧
      (let t := { s 0x8000 with cached := [⟨0x8000#32, Vector.replicate 16 (.word 0#32)⟩] };
        PreviousFrame t (fun _ => 0#32) []) := by
  refine ⟨?_, by decide +kernel, by decide +kernel, by decide +kernel, by decide, by decide, ?_⟩
  · intro r0 h
    simp only [List.mem_cons, List.not_mem_nil, or_false] at h
    rcases h with rfl | rfl | rfl | rfl | rfl | rfl | rfl <;>
      exact ⟨by decide, .inr (.inl (by decide)),
        .inr ⟨by decide, by simp only [State.ramAt]; decide +kernel, rfl, fun i => by revert i; decide +kernel⟩⟩
  · exact .inl ⟨Vector.replicate 16 (.word 0#32), by decide, fun i => by revert i; decide⟩

theorem witness_FlushWritesCachedFrames :
    let l : List CachedFrame :=
      [⟨0x8040#32, Vector.replicate 16 (.word 0#32)⟩, ⟨0x8000#32, Vector.replicate 16 (.word 1#32)⟩]
    l.Pairwise (fun f g => 64 ≤ (f.frame - g.frame).toNat ∧ 64 ≤ (g.frame - f.frame).toNat) ∧
      (∀ f ∈ l, State.ramAt { plain with cached := l } f.frame 64) ∧ 64 ≤ (0x7FC0#32 - 0x8000#32 : Word).toNat := by
  refine ⟨by decide, ?_, by decide⟩
  simp only [State.ramAt]
  decide +kernel

theorem witness_MarksAndSynchronize :
    plain.te = false ∧ (framed 3 [] []).te = true ∧ (framed 3 [] []).tctl.getLsbD 7 = false ∧
      ({ framed 3 [] [] with tctl := 0x80#32 } : State).tctl.getLsbD 7 = true := by
  decide

theorem witness_ProcessControlsAreSupervisorOnly :
    (srcVal user (.lit 0) = 0#32 ∧ srcVal user (.lit 31) ≠ 0#32 ∧ user.supervisor = false) ∧
      (let s := { small 0x1000 0 [(17, 0x1F0000), (18, 0x50000), (19, 0x1F0000)] [] with intTable := 0x10400#32 };
        s.supervisor = true ∧ srcVal s (.reg 17) ≠ 0#32 ∧
          ((((s.readReg 18#5) &&& srcVal s (.reg 17)) ||| (s.pctl &&& ~~~srcVal s (.reg 17))).extractLsb' 16 5).toNat <
            (s.pctl.extractLsb' 16 5).toNat ∧
          (s.pctl.extractLsb' 16 5).toNat ≤
            ((((s.readReg 19#5) &&& srcVal s (.reg 17)) ||| (s.pctl &&& ~~~srcVal s (.reg 17))).extractLsb' 16 5).toNat ∧
          s.readable s.intTable 4 = true ∧ s.readWord s.intTable = 0#32) := by
  decide +kernel

theorem witness_PendingInterruptsAreServedByPriority :
    let s := framed 0x50002 [] [(0x10401, [0x10]), (0x10410, [0x30])]
    s.readable s.intTable 36 = true ∧ s.ramAt s.intTable 36 ∧ (s.readWord s.intTable).getLsbD 12 = true ∧
      (∀ q, 12 < q → (s.readWord s.intTable).getLsbD q = false) ∧ (s.pctl.extractLsb' 16 5).toNat < 12 ∧
      ((List.range 8).filter fun i =>
        (s.readWord (s.intTable + 4#32 + BitVec.ofNat 32 (4 * (12 / 4)))).getLsbD (8 * (12 % 4) + i)) = [4, 5] ∧
      ¬ (((framed 0xC0002 [] []).pctl.extractLsb' 16 5).toNat < 12 ∨ 12 = 31) := by
  refine ⟨by decide +kernel, by simp only [State.ramAt]; decide +kernel, by decide +kernel, ?_, by decide, by decide +kernel,
    by decide⟩
  intro q hq
  have h : State.readWord (framed 0x50002 [] [(0x10401, [0x10]), (0x10410, [0x30])])
      (framed 0x50002 [] [(0x10401, [0x10]), (0x10410, [0x30])]).intTable = 0x1000#32 := by decide +kernel
  rw [h]
  by_cases hlt : q < 32
  · have : ∀ n < 32, 12 < n → (0x1000#32 : Word).getLsbD n = false := by decide
    exact this q hlt hq
  · exact BitVec.getLsbD_of_ge _ _ (by omega)

theorem witness_AtomicUpdates :
    holed.readable (srcVal holed (.lit 31) &&& 0xFFFFFFFC#32) 4 = true ∧
      holed.readable (srcVal (holed.setReg 16 0x5FFF#32) (.reg 16) &&& 0xFFFFFFFC#32) 4 = false := by
  decide

theorem witness_SynchronousTransfers :
    let s := small 0 0 [(16, 0xFF000004), (17, 0x9003), (18, 0x5FFF), (19, 0xFF000007)] []
    let h := { s with memMap := holed.memMap }
    s.readable (srcVal s (.lit 0)) 16 = true ∧ (srcVal s (.reg 16) &&& 0xFFFFFFFC#32) = 0xFF000004#32 ∧
      (srcVal s (.reg 19) &&& 0xFFFFFFFC#32) = 0xFF000004#32 ∧ (srcVal s (.reg 16) &&& 0xFFFFFFF8#32) ≠ 0xFF000010#32 ∧
      (srcVal s (.reg 17) &&& 0xFFFFFFFC#32) ≠ 0xFF000004#32 ∧
      s.readable (srcVal s (.reg 17) &&& 0xFFFFFFFC#32) 4 = true ∧ h.readable (srcVal s (.reg 18)) 4 = false ∧
      h.readable (srcVal s (.reg 18) &&& 0xFFFFFFFC#32) 4 = false := by
  decide

/-- A message of this type, vector 100, PRCB at 0x1000 or 0x2000, at 0x900. -/
def message (type vector : Nat) : State :=
  small 0 0 [(16, 0xFF00001F), (17, 0x900)] [(0x902, [vector, type]), (0x904, [0, 0x10]), (0x908, [0, 0x20])]

theorem witness_MessagesToTheProcessorItself :
    (srcVal (message 0x91 0) (.reg 16) &&& 0xFFFFFFF0#32) = 0xFF000010#32 ∧
      (message 0x91 0).readable (srcVal (message 0x91 0) (.reg 17)) 16 = true ∧
      (∀ n ∈ [0x91, 0x89, 0x8F, 0x80, 0x81, 0x92, 0x93, 0x40, 0x41, 0x42],
        (((message n 0).readWord 0x900#32).extractLsb' 24 8).toNat = n) ∧
      (message 0x80 0).ramAt ((message 0x80 0).readWord 0x904#32) 8 ∧
      (message 0x81 0).readable ((message 0x81 0).readWord 0x908#32) 44 = true ∧
      (message 0x92 0).readable 0#32 16 = true ∧ (message 0x92 0).readable ((message 0x92 0).readWord 4#32) 44 = true ∧
      (message 0x93 0).readable ((message 0x93 0).readWord 0x904#32) 44 = true ∧
      (((message 0x40 7).readWord 0x900#32).extractLsb' 16 8).toNat < 8 ∧
      ((message 0x40 255).readWord 0x900#32).extractLsb' 16 8 = 255#8 ∧ Serves (message 0x40 255) 255#8 ∧
      (message 0x40 255).readable ((message 0x40 255).intTable + 4#32 + BitVec.ofNat 32 (4 * 255)) 4 = true ∧
      ¬ Serves (message 0x40 247) 247#8 ∧ (message 0x40 247).readable (message 0x40 247).intTable 36 = true ∧
      (message 0x40 247).ramAt (message 0x40 247).intTable 36 ∧
      (message 0x41 0).readable (message 0x41 0).intTable 4 = true ∧
      (message 0x41 0).readWord (message 0x41 0).intTable = 0#32 := by
  simp only [State.ramAt, Serves]
  decide +kernel

theorem witness_ProcessManagementOutsideVirtualMode : (30#5 : Reg).toNat % 2 = 0 := by decide

theorem witness_StringsAreMovedAndFilled :
    let s := { small 0 0 [(16, 0x8001), (17, 0x8000), (18, 3), (19, 0x9000), (20, 0x5FFF), (21, 0xFFFFFFFE)] [] with
      memMap := holed.memMap }
    s.mem.wf = true ∧ s.readable (srcVal s (.reg 17)) 3 = true ∧ (srcVal s (.reg 16)).toNat + 3 ≤ 2 ^ 32 ∧
      (srcVal s (.reg 17)).toNat + 3 ≤ (srcVal s (.reg 19)).toNat ∧ s.readable (srcVal s (.reg 20)) 3 = false ∧
      s.readable (srcVal s (.reg 21)) 3 = true ∧ (srcVal s (.reg 18)).toNat = 3 := by
  decide

theorem witness_StringsAreCompared :
    let s := { small 0 0 [(16, 0x8000), (17, 0x8010), (18, 3), (19, 0x5FFE), (20, 0x4FFE)]
      [(0x8000, [1, 2, 3]), (0x8010, [1, 2, 4])] with memMap := holed.memMap }
    (∀ k < 3, s.readable (srcVal s (.reg 16) + BitVec.ofNat 32 k) 1 = true ∧
        s.readable (srcVal s (.reg 17) + BitVec.ofNat 32 k) 1 = true) ∧
      (∀ k < 2, s.readByte (srcVal s (.reg 16) + BitVec.ofNat 32 k) =
        s.readByte (srcVal s (.reg 17) + BitVec.ofNat 32 k)) ∧
      (s.readByte (srcVal s (.reg 16) + 2#32)).toNat < (s.readByte (srcVal s (.reg 17) + 2#32)).toNat ∧
      s.readable (srcVal s (.reg 20) + 1#32) 1 = true ∧ s.readable (srcVal s (.reg 20) + 2#32) 1 = false := by
  decide +kernel

theorem witness_DecimalOperations :
    let s := small 0 0 [(16, 0x39), (17, 0x3A)] []
    ((srcVal s (.reg 16)).extractLsb' 0 4).toNat ≤ 9 ∧ ((srcVal s (.lit 0)).extractLsb' 0 4).toNat ≤ 9 ∧
      ¬ ((srcVal s (.reg 17)).extractLsb' 0 4).toNat ≤ 9 := by
  decide

theorem witness_FaultsEnterTheirHandler :
    (∀ s ∈ [framed 2 [] [(0x618, [0, 0x60])], fullCache],
      s.cached.length ≤ cacheDepth ∧ s.readable 0x618#32 8 = true ∧ (s.readWord 0x618#32).extractLsb' 0 2 = 0b00#2 ∧
        s.ramAt (0x80C0#32 - 16#32) 16 ∧ ∀ f ∈ s.flushed, Apart f.frame 64 (0x80C0#32 - 16#32) 16 ∧ s.ramAt f.frame 64) ∧
      (let s := framed 0 [] [(0x618, [0x0E, 4]), (0x343C, [2, 0x40]), (0x300C, [1, 0x90])];
        (s.readWord 0x618#32).extractLsb' 0 2 = 0b10#2 ∧ (s.readWord 0x618#32).toNat / 4 = 259 ∧
          s.readable 0x343C#32 4 = true ∧ (s.readWord 0x343C#32).extractLsb' 0 2 = 0b10#2 ∧ s.supervisor = false ∧
          s.readable 0x300C#32 4 = true ∧ s.ramAt (0x9040#32 - 16#32) 16) ∧
      (framed 2 [] [(0x618, [3])]).readWord 0x618#32 = 3#32 := by
  simp only [State.ramAt, Apart, List.forall_mem_cons]
  decide +kernel

theorem witness_FailedFaultsEscalate :
    (let s := { framed 2 [] [] with memMap := [⟨0x604, 0xFF, .bad⟩] };
      s.readable (s.faultTable + 24#32) 8 = false ∧ s.readable s.faultTable 8 = false ∧
        s.readable (s.intTable + 996#32) 4 = true ∧ s.prcb = 0#32) ∧
      (let s := { fullCache with memMap := [⟨0x61C, 0xFF, .bad⟩] };
        s.readable (s.faultTable + 24#32) 8 = false ∧ s.readable s.faultTable 8 = true ∧
          (s.readWord s.faultTable).extractLsb' 0 2 = 0b00#2 ∧ s.ramAt (0x80C0#32 - 20#32) 20 ∧
          (∀ f ∈ s.flushed, Apart f.frame 64 (0x80C0#32 - 20#32) 20) ∧ s.cached.length ≤ cacheDepth) ∧
      (let s := { framed 2 [] [] with memMap := [⟨0x600, 0x20000, .bad⟩] };
        s.readable (s.faultTable + 24#32) 8 = false ∧ s.readable s.faultTable 8 = false ∧
          s.readable (s.intTable + 996#32) 4 = false ∧ s.ramAt (s.prcb + 128#32) 44) ∧
      (∀ i < 4, ∀ j < 44, (0x107E4#32 : Word) + BitVec.ofNat 32 i ≠ 0#32 + 128#32 + BitVec.ofNat 32 j) ∧
      ∀ i < 4, ∀ j < 4, (0x107E4#32 : Word) + BitVec.ofNat 32 i ≠ 0#32 + 72#32 + BitVec.ofNat 32 j := by
  simp only [State.ramAt, Apart]
  decide +kernel

theorem witness_InterruptsEnterTheirHandler :
    (let s := fullCache;
      s.cached.length ≤ cacheDepth ∧ s.readable (s.intTable + 4#32 + BitVec.ofNat 32 (4 * 255)) 4 = true ∧
        s.pctl.extractLsb' 13 2 ≠ 1#2 ∧ s.ramAt (0x10040#32 - 16#32) 12 ∧
        ∀ f ∈ s.flushed, Apart f.frame 64 (0x10040#32 - 16#32) 12 ∧ s.ramAt f.frame 64) ∧
      (framed 0x32002 [] []).pctl.extractLsb' 13 2 = 1#2 ∧ (framed 0x32002 [] []).ramAt (0x80C0#32 - 16#32) 12 := by
  simp only [State.ramAt, Apart]
  decide +kernel

theorem witness_TraceEventsAreReported :
    (let t := { framed 3 [] [] with tctl := 2#32, traced := evInstruction };
      t.te = true ∧ t.traced &&& t.tctl.extractLsb' 0 8 &&& 0xFE#8 ≠ 0#8 ∧
        ∃ v, takeFault (.trace 2#8) 0x1000#32 t.ip
          { t with tctl := 0x20002#32, pctl := 0x403#32, serial := t.serial + 1 } = .next v) ∧ plain.te = false :=
  ⟨⟨by decide, by decide, _, rfl⟩, by decide⟩

theorem witness_ArithmeticIsRoundedOnce :
    (FpNum.fin false (2 ^ 64 - 1) 0).Finite ∧ (FpNum.zero true).Finite ∧
      (∀ neg m e, FpNum.fin false (2 ^ 64 - 1) 0 = .fin neg m e → m < 2 ^ 64) ∧
      (roundNum .real 0#2 (fpAdd 0 0#2 (.fin false (2 ^ 64 - 1) 0) (.fin true 1 0)).num).exc.overflow = false ∧
      (roundNum .real 0#2 (fpDiv 0 0#2 (.fin false 3 0) (.fin true 1 0)).num).exc.overflow = false ∧
      (0 : ℝ) ≤ (FpNum.fin false 3 0).value ∧ (∀ b, FpNum.fin false 3 0 ≠ .zero b) ∧
      (roundNum .real 0#2 (.fin true 0x1FFFFFF 103)).exc.overflow = true ∧
      (roundNum .real 2#2 (.fin true 0x1FFFFFF 103)).exc.overflow = false := by
  refine ⟨by simp [FpNum.Finite], trivial, ?_, by decide +kernel, by decide +kernel, by norm_num [FpNum.value], by simp,
    by decide +kernel, by decide +kernel⟩
  rintro neg m e ⟨⟩
  norm_num

theorem witness_FormatsRoundTrip :
    (2 ^ (FpFormat.real.precision - 1) ≤ 0xFFFFFF ∧ 0xFFFFFF < 2 ^ FpFormat.real.precision ∧
      FpFormat.real.lastExp ≤ 104 ∧ (104 : Int) ≤ FpFormat.real.maxExp - FpFormat.real.precision + 1) ∧
      (0 < 1 ∧ 1 < 2 ^ (FpFormat.long.precision - 1)) := by
  decide

theorem witness_FloatingPointArithmeticCompletes :
    AllMasked masked.ac ∧ SourceReady masked .real (.reg 16) ∧ SourceReady masked .real (.fp 0) ∧
      SourceReady masked .long (.reg 20) ∧ SourceReady masked .real .one ∧ TargetReady .real (.reg 31) ∧
      TargetReady .long (.reg 30) ∧ TargetReady .long (.fp 3) := by
  simp only [AllMasked, SourceReady, TargetReady]
  decide +kernel

/-- Reals in g0 to g7: an infinity, 8.0, -1.0, 2^-40, the smallest denormalized number, 1.5, a quiet and a signaling NaN. -/
def reals (ac : Nat) : State :=
  { small 0x1000 ac [(16, 0x7F800000), (17, 0x41000000), (18, 0xBF800000), (19, 0x2B800000), (20, 1), (21, 0x3FC00000),
      (22, 0x7FC00000), (23, 0x7F800001)] [] with
    fps := #v[0x3FFF0000000000000001#80, 0#80, 0#80, 1#80] }

theorem reals_are_ready :
    (∀ r : Reg, r.toNat ∈ [16, 17, 18, 19, 20, 21, 22, 23] → SourceReady (reals 0x3F001000) .real (.reg r)) ∧
      TargetReady .real (.reg 31) ∧ AllMasked (reals 0x3F001000).ac := by
  simp only [SourceReady, TargetReady, AllMasked]
  decide +kernel

theorem witness_TranscendentalsComplete :
    AllMasked masked.ac ∧ SourceReady masked .real .zero ∧ (sourceOperand masked .real .zero).num = .zero false ∧
      SourceReady masked .long (.reg 20) ∧ TargetReady .long (.reg 30) ∧
      (sourceOperand (reals 0x3F001000) .real (.reg 16)).num = .inf false ∧
      (sourceOperand (reals 0x3F001000) .real (.reg 17)).num = .fin false (2 ^ 23) (-20) ∧
      (sourceOperand (reals 0x3F001000) .real (.reg 18)).num = .fin true (2 ^ 23) (-23) ∧
      (sourceOperand (reals 0x3F001000) .real (.reg 19)).num = .fin false (2 ^ 23) (-63) := by
  simp only [AllMasked, SourceReady, TargetReady]
  decide +kernel

/-- The powers of two among them: 8.0, and a very small one. -/
theorem values_of_reals :
    (FpNum.fin false (2 ^ 23) (-20)).value = (2 : ℝ) ^ (3 : Int) ∧
      |(FpNum.fin false (2 ^ 23) (-63)).value| < (2 : ℝ) ^ (-32 : Int) ∧ (FpNum.fin false (2 ^ 23) (-63)).value ≠ 0 := by
  norm_num [FpNum.value, abs_of_pos]

theorem witness_UnmaskedExceptionsTrap :
    let exc := fun (w v : Nat) (f : Nat → BitVec 2 → FpNum → FpNum → FpResult) =>
      let s := small 0 0 [(16, w), (17, v)] []
      deliveredExceptions .real 0#2 (f 0 0#2 (sourceOperand s .real (.reg 16)).num (sourceOperand s .real (.reg 17)).num)
    (SourceReady plain .real (.reg 16) ∧ TargetReady .real (.reg 18) ∧ (20#5 : Reg).toNat % 2 = 0 ∧
      movesConvert .real (.fp 0) (.reg 18) = true ∧ SourceReady (reals 0) .real (.reg 23)) ∧
      plain.ac.fim = false ∧ plain.ac.fzm = false ∧
      plain.ac.fom = false ∧ plain.ac.fum = false ∧ plain.ac.fxm = false ∧ (exc 0 0 fpDiv).invalid = true ∧
      (exc 0 0x3F800000 fpDiv).zeroDivide = true ∧ (exc 0x7F7FFFFF 0x7F7FFFFF fpAdd).overflow = true ∧
      (exc 0x7F7FFFFF 0x7F7FFFFF fpAdd).inexact = true ∧ (small 0 0x0F000000 [] []).ac.fom = true ∧
      (small 0 0x0F000000 [] []).ac.fxm = false ∧
      (exc 0x00800000 0x00800000 fpMul).tiny = true ∧ (exc 0x40400000 0x3F800000 fpDiv).inexact = true ∧
      (sourceOperand (reals 0) .real (.reg 23)).cls = .signalingNaN := by
  refine ⟨?_, ?_⟩
  · simp only [SourceReady, TargetReady]
    decide +kernel
  · decide +kernel

theorem witness_ReservedOperandsFault :
    TargetReady .real (.reg 18) ∧ (∀ x ∈ [FSrc.fp 0, .fp 3, .reg 20], BadEncoding (reals 0) .real x ∧ SourceStarts .real x) ∧
      SourceStarts .real (.reg 17) ∧ SourceStarts .long (.reg 18) ∧ SourceStarts .extended (.reg 20) ∧
      ReservedCode (.reserved 4) := by
  refine ⟨by simp only [TargetReady]; decide, ?_, by simp only [SourceStarts]; decide, by simp only [SourceStarts]; decide,
    by simp only [SourceStarts]; decide, ⟨4, rfl⟩⟩
  intro x h
  simp only [List.mem_cons, List.not_mem_nil, or_false] at h
  rcases h with rfl | rfl | rfl
  · exact ⟨.inl ⟨⟨0, rfl⟩, by decide +kernel⟩, trivial⟩
  · exact ⟨.inr ⟨by decide +kernel, by decide⟩, trivial⟩
  · exact ⟨.inr ⟨by decide +kernel, by decide⟩, by simp only [SourceStarts]; decide⟩

theorem witness_ReservedDestinations :
    srcVal masked (.lit 1) ≠ 0#32 ∧ srcVal masked (.lit 0) = 0#32 ∧ (20#5 : Reg).toNat % 4 = 0 ∧ (18#5 : Reg).toNat % 2 = 0 ∧
      masked.supervisor = true ∧ user.supervisor = false ∧
      (let new := fun n : BitVec 5 => (n.setWidth 32 &&& 0x1F0000#32) ||| (plain.pctl &&& ~~~0x1F0000#32);
        ((new 0).extractLsb' 16 5).toNat < (plain.pctl.extractLsb' 16 5).toNat ∧
          (user.pctl.extractLsb' 16 5).toNat ≤ ((new 0).extractLsb' 16 5).toNat) ∧
      masked.readable (srcVal masked (.lit 31) &&& 0xFFFFFFFC#32) 4 = true ∧ Masked masked { inexact := true } ∧
      SourceReady masked .real (.reg 16) ∧ SourceReady masked .long (.reg 20) ∧ SourceReady masked .extended (.fp 0) := by
  simp only [Masked, SourceReady]
  decide +kernel

theorem witness_SpecialOperands :
    (sourceOperand (small 0 0 [(16, 0x7FC00000)] []) .real (.reg 16)).num = .nan false 0xC000000000000000#64 ∧
      (sourceOperand (small 0 0 [(16, 0x7F800001)] []) .real (.reg 16)).num = .nan false 0x8000010000000000#64 ∧
      (0x8000010000000000#64).toNat < (0xC000000000000000#64).toNat := by
  decide +kernel

theorem witness_FloatingPointMoves :
    SourceReady masked .real (.reg 16) ∧ SourceReady masked .long (.reg 20) ∧ SourceReady masked .extended (.reg 24) ∧
      SourceReady masked .extended (.fp 0) ∧ TargetReady .extended (.reg 28) ∧ AllMasked masked.ac ∧
      movesConvert .real (.reg 16) (.reg 17) = false ∧ movesConvert .long (.reg 20) (.fp 0) = true ∧
      movesConvert .extended (.fp 0) (.reg 28) = false := by
  simp only [AllMasked, SourceReady, TargetReady]
  decide +kernel

theorem witness_ComparesAndClassifies :
    let s := small 0 0 [(16, 0x7FC00000), (17, 0x3FC00000), (18, 0xFF800000), (19, 0x80000000)] []
    SourceReady s .real (.reg 16) ∧ SourceReady s .real (.reg 17) ∧ SourceReady s .real (.reg 18) ∧
      (sourceOperand s .real (.reg 16)).isNaN = true ∧ s.ac.fim = false ∧
      (sourceOperand s .real (.reg 18)).num = .inf true ∧ (sourceOperand s .real (.reg 17)).num = .fin false 0xC00000 (-23) ∧
      (sourceOperand s .real (.reg 19)).num = .zero true := by
  simp only [SourceReady]
  decide +kernel

theorem witness_Conversions :
    let s := small 0 0x1F000000 [(16, 0x4F000000), (17, 0xCF000000), (18, 0x7F800000), (19, 0x40200000)] []
    AllMasked s.ac ∧ TargetReady .real (.reg 31) ∧ SourceReady s .real (.reg 16) ∧ SourceReady s .real (.reg 17) ∧
      SourceReady s .real (.reg 18) ∧ (sourceOperand s .real (.reg 18)).num = .inf false ∧ s.ac.om = false ∧
      masked.ac.om = true ∧ (20#5 : Reg).toNat % 2 = 0 ∧
      (sourceOperand s .real (.reg 16)).num = .fin false 0x800000 8 ∧
      (sourceOperand s .real (.reg 19)).num = .fin false 0xA00000 (-22) ∧ s.ac.fxm = true ∧ plain.ac.fxm = false := by
  simp only [AllMasked, SourceReady, TargetReady]
  decide +kernel

end Sys2Proof.Tests
end

