-- ==== Sys2Proof/Proofs/Encoding.lean ====
section
/-! SUPPORT. What the decoder takes of the words it is given (R134), and the TEST IF words (R144). -/

namespace Sys2Proof.Machine

/-! ### The words an instruction takes (R134) -/

/-- Decoding leaves `rest` of the words `more` after the first one: all of them but a displacement, if there is one. -/
def Leaves (displacement : Bool) (more rest : List Word) : Prop :=
  if displacement then ∃ d, more = d :: rest else more = rest

@[simp] theorem leaves_true {more rest : List Word} : Leaves true more rest ↔ ∃ d, more = d :: rest := by simp [Leaves]
@[simp] theorem leaves_false {more rest : List Word} : Leaves false more rest ↔ more = rest := by simp [Leaves]

theorem withDisp_eq_ok {more rest : List Word} {f : Word → MemOp} {m : MemOp} (h : withDisp more f = .ok (m, rest)) :
    ∃ d, more = d :: rest := by
  cases more with
  | nil => cases h
  | cons d more => cases h; exact ⟨d, rfl⟩

theorem indexed_eq_ok {w : Word} {k : Scale → Except DecodeError (MemOp × List Word)} {p : MemOp × List Word}
    (h : indexed w k = .ok p) : ∃ scale, k scale = .ok p := by
  unfold indexed at h
  split at h
  · exact ⟨_, h⟩
  · cases h

theorem unindexed_eq_ok {w : Word} {r : Except DecodeError (MemOp × List Word)} {p : MemOp × List Word}
    (h : unindexed w r = .ok p) : r = .ok p := by
  unfold unindexed at h
  split at h
  · exact h
  · split at h
    · cases h
    · exact h

/-- In a MEMB word the mode alone tells whether a displacement follows. -/
theorem hasDisplacement_memb {w : Word} {mode : Nat} (hop : 0x80 ≤ opcodeOf w) (hform : bitAt w 12 = true)
    (hmode : (w.extractLsb' 10 4).toNat = mode) :
    hasDisplacement w = (mode == 5 || decide (12 ≤ mode)) := by
  simp [hasDisplacement, hop, hform, hmode]

/-- The memory operand of a MEM word takes the displacement word its mode announces, and no other. -/
theorem decodeMemOp_leaves {w : Word} {more rest : List Word} {m : MemOp} (hop : 0x80 ≤ opcodeOf w)
    (h : decodeMemOp w more = .ok (m, rest)) : Leaves (hasDisplacement w) more rest := by
  unfold decodeMemOp at h
  split at h
  case isTrue hmema =>
    have hno : hasDisplacement w = false := by simp [hasDisplacement, hmema]
    rw [hno, leaves_false]
    split at h <;> cases h <;> rfl
  case isFalse hmemb =>
    have hform : bitAt w 12 = true := by simpa using hmemb
    split at h
    case isTrue => cases h
    case isFalse =>
      split at h
      case h_1 hmode =>
        cases unindexed_eq_ok h
        simp [hasDisplacement_memb hop hform hmode]
      case h_2 hmode =>
        simpa [hasDisplacement_memb hop hform hmode] using withDisp_eq_ok (unindexed_eq_ok h)
      case h_3 hmode =>
        obtain ⟨scale, h⟩ := indexed_eq_ok h
        cases h
        simp [hasDisplacement_memb hop hform hmode]
      case h_4 hmode =>
        simpa [hasDisplacement_memb hop hform hmode] using withDisp_eq_ok (unindexed_eq_ok h)
      case h_5 hmode =>
        simpa [hasDisplacement_memb hop hform hmode] using withDisp_eq_ok (unindexed_eq_ok h)
      case h_6 hmode =>
        obtain ⟨scale, h⟩ := indexed_eq_ok h
        simpa [hasDisplacement_memb hop hform hmode] using withDisp_eq_ok h
      case h_7 hmode =>
        obtain ⟨scale, h⟩ := indexed_eq_ok h
        simpa [hasDisplacement_memb hop hform hmode] using withDisp_eq_ok h
      case h_8 => cases h

/-- A CTRL instruction is its first word alone. -/
theorem decodeCtrl_rest {w : Word} {more rest : List Word} {i : Instr} (h : decodeCtrl w more = .ok (i, rest)) :
    more = rest := by
  unfold decodeCtrl at h
  split at h
  · cases h
  · split at h
    · cases h
    · split at h <;> cases h <;> rfl

/-- A COBR instruction is its first word alone. -/
theorem decodeCobr_rest {w : Word} {more rest : List Word} {i : Instr} (h : decodeCobr w more = .ok (i, rest)) :
    more = rest := by
  unfold decodeCobr at h
  split at h
  · cases h
  · split at h
    · cases h
    · split at h <;> cases h <;> rfl

/-- A REG instruction is its first word alone. -/
theorem decodeReg_rest {w : Word} {more rest : List Word} {i : Instr} (h : decodeReg w more = .ok (i, rest)) :
    more = rest := by
  unfold decodeReg at h
  split at h
  · cases h
  · split at h
    · cases h
    · cases h; rfl

/-- A MEM instruction takes the words its memory operand takes. -/
theorem decodeMem_eq_ok {w : Word} {more rest : List Word} {i : Instr} (h : decodeMem w more = .ok (i, rest)) :
    ∃ m, decodeMemOp w more = .ok (m, rest) := by
  unfold decodeMem at h
  split at h
  · cases h
  · split at h
    · cases h
    case h_2 m after hm => split at h <;> cases h <;> exact ⟨m, hm⟩

/-- The decoder takes the displacement word that the first word announces, and no other. -/
theorem decode_leaves {w : Word} {more rest : List Word} {i : Instr} (h : decode (w :: more) = .ok (i, rest)) :
    Leaves (hasDisplacement w) more rest := by
  change decodeWord w more = _ at h
  unfold decodeWord at h
  by_cases hmem : 0x80 ≤ opcodeOf w
  · rw [if_neg (by omega), if_neg (by omega), if_neg (by omega)] at h
    obtain ⟨m, hm⟩ := decodeMem_eq_ok h
    exact decodeMemOp_leaves hmem hm
  · rw [hasDisplacement_below (by omega), leaves_false]
    split at h
    · exact decodeCtrl_rest h
    · split at h
      · exact decodeCobr_rest h
      · rw [if_pos (by omega)] at h
        exact decodeReg_rest h

/-- When a displacement follows, in the fields of the word: a MEM opcode, the MEMB form, a mode with a displacement. -/
theorem hasDisplacement_iff {w : Word} :
    hasDisplacement w = true ↔ 0x80 ≤ (w.extractLsb' 24 8).toNat ∧ w.getLsbD 12 = true ∧
      (w.extractLsb' 10 4 = 0b0101#4 ∨ 0b1100#4 ≤ w.extractLsb' 10 4) := by
  simp only [hasDisplacement, Bool.and_eq_true, Bool.or_eq_true, decide_eq_true_eq, beq_iff_eq, and_assoc]
  simp [opcodeOf, bitAt, BitVec.le_def, ← BitVec.toNat_inj]

/-- Settles O2: the decoder leaves what the first word announces, and that is the claim's condition on its fields. -/
theorem instructionLength : Obligations.InstructionLength := by
  unfold Obligations.InstructionLength
  intro w more i rest h
  have hleaves := decode_leaves h
  split
  case isTrue hc => rwa [hasDisplacement_iff.2 hc, leaves_true] at hleaves
  case isFalse hc => rwa [Bool.eq_false_iff.2 (mt hasDisplacement_iff.1 hc), leaves_false] at hleaves

/-! ### TEST IF words (R144) -/

/-- Words that agree under a mask agree in a field the mask covers. -/
theorem extractLsb'_eq_of_and_eq {w u mask : Word} {start len : Nat} (h : w &&& mask = u &&& mask)
    (hmask : mask.extractLsb' start len = BitVec.allOnes len) : w.extractLsb' start len = u.extractLsb' start len := by
  simpa [BitVec.extractLsb'_and, hmask] using congrArg (BitVec.extractLsb' start len) h

/-- The opcodes from 0x20 to 0x27 are those of the TEST IF rows. -/
theorem testIfRows_opcodes : ∀ op ≤ 0x27, 0x20 ≤ op → ∃ row ∈ testIfRows, row.1 = op := by
  decide

/-- Their opcodes select the COBR format (R131). -/
theorem testIfRows_cobr : ∀ row ∈ testIfRows, 0x20 ≤ row.1 ∧ row.1 < 0x40 := by
  decide

/-- The decoder's table has each TEST IF row (R160). -/
theorem cobrTable_testIf {row : Nat × (Reg → Instr) × BitVec 3} (h : row ∈ testIfRows) :
    cobrTable.lookup row.1 = some (.test row.2.1) := by
  fin_cases h <;> rfl

/-- Each TEST IF row runs the test of its mask (R321 to R328). -/
theorem exec_testIf {row : Nat × (Reg → Instr) × BitVec 3} (h : row ∈ testIfRows) (r : Reg) (s : State) :
    exec (row.2.1 r) s = testOn s row.2.2 r := by
  fin_cases h <;> rfl

/-- A word with the opcode of a TEST IF row: bits 1:0 must be 0, and src1 alone makes the instruction (R135, R144, R166). -/
theorem decode_testIf {row : Nat × (Reg → Instr) × BitVec 3} (h : row ∈ testIfRows) {w : Word} (rest : List Word)
    (hop : opcodeOf w = row.1) :
    decode (w :: rest) =
      if lowBits w ≠ 0 then .error .reservedBits else .ok (row.2.1 (field23 w), rest) := by
  obtain ⟨hlow, hhigh⟩ := testIfRows_cobr row h
  change decodeWord w rest = _
  unfold decodeWord
  rw [if_neg (by omega), if_pos (by omega)]
  simp only [decodeCobr, hop, cobrTable_testIf h]

/-- A test writes its destination register and nothing else (R320). -/
theorem testOn_writes (s : State) (m : BitVec 3) (r : Reg) :
    Gives (testOn s m r) (Writes s r [if condHolds m s.ac.cc then 1#32 else 0#32] s.ac 4#32) :=
  ⟨_, rfl, writes_of_setReg_ac r _ 4#32⟩

/-- Settles O28: opcode, src1 and bits 1:0 are under the mask, and src1 is the destination of the test. -/
theorem testIfFields : Obligations.TestIfFields := by
  unfold Obligations.TestIfFields
  intro w u rest hlow hhigh
  obtain ⟨row, hrow, hop⟩ := testIfRows_opcodes _ hhigh hlow
  refine ⟨fun hmask => ?_, fun hbits => ⟨row.2.1 (field23 w), ?_, fun s => ?_⟩⟩
  · have hopcode : opcodeOf w = opcodeOf u := congrArg BitVec.toNat (extractLsb'_eq_of_and_eq hmask (by decide))
    have hsrc1 : field23 w = field23 u := extractLsb'_eq_of_and_eq hmask (by decide)
    have hzero : lowBits w = lowBits u := extractLsb'_eq_of_and_eq hmask (by decide)
    rw [decode_testIf hrow rest hop.symm, decode_testIf hrow rest (hopcode.symm.trans hop.symm), hsrc1, hzero]
  · rw [decode_testIf hrow rest hop.symm]
    exact if_neg (not_not.2 hbits)
  · obtain ⟨t, ht, hwrites⟩ := testOn_writes s row.2.2 (field23 w)
    exact ⟨_, t, (exec_testIf hrow _ s).trans ht, hwrites.group⟩

end Sys2Proof.Machine
end

section
/-! SUPPORT. Decoding what the encoder writes (R130 to R152, R160), and the words no instruction has (R150, R151, R165,
R166). -/

namespace Sys2Proof.Machine

/-! ### Operands: the fields the encoder writes are read back -/

@[simp] theorem toSrc_bits (x : Src) : toSrc x.bits.1 x.bits.2 = x := by cases x <;> rfl
@[simp] theorem toDst_bits (x : Dst) : toDst x.bits.1 x.bits.2 = x := by cases x <;> rfl

theorem toFSrc_reserved {c : BitVec 5} (h : reservedSourceCode c = true) : toFSrc true c = .reserved c := by
  revert c; decide

theorem toFDst_reserved {c : BitVec 5} (h : reservedDestCode c = true) : toFDst true c = .reserved c := by
  revert c; decide

theorem toFSrc_bits {n : Nat} {x : FSrc} (h : x.ok false n = true) : toFSrc x.bits.1 x.bits.2 = x := by
  cases x with
  | reg r => rfl
  | fp k => clear h; revert k; decide
  | zero => rfl
  | one => rfl
  | reserved c => exact toFSrc_reserved h

theorem toFDst_bits {n : Nat} {x : FDst} (h : x.ok false n = true) : toFDst x.bits.1 x.bits.2 = x := by
  cases x with
  | reg r => rfl
  | fp k => clear h; revert k; decide
  | reserved c => exact toFDst_reserved h

@[simp] theorem toScale_code (x : Scale) : toScale x.code = some x := by cases x <;> rfl
@[simp] theorem toScale_zero : toScale 0#3 = some .x1 := rfl

/-! ### What a REG row builds from the word of its operands -/

section Build

variable {op : BitVec 12} {p q r : Bool × BitVec 5}

theorem build_none {i : Instr} : RegForm.build (.none i) (regWord op p q r) = i := rfl
theorem build_s {f : Src → Instr} (x : Src) : RegForm.build (.s f) (regWord op p q x.bits) = f x := by
  simp [RegForm.build, field4]
theorem build_d {f : Dst → Instr} (x : Dst) : RegForm.build (.d f) (regWord op x.bits p q) = f x := by
  simp [RegForm.build, field23]
theorem build_sd {f : Src → Dst → Instr} (x : Src) (y : Dst) :
    RegForm.build (.sd f) (regWord op y.bits p x.bits) = f x y := by
  simp [RegForm.build, field4, field23]
theorem build_ss {f : Src → Src → Instr} (x y : Src) :
    RegForm.build (.ss f) (regWord op p y.bits x.bits) = f x y := by
  simp [RegForm.build, field4, field18]
theorem build_ssd {f : Src → Src → Dst → Instr} (x y : Src) (z : Dst) :
    RegForm.build (.ssd f) (regWord op z.bits y.bits x.bits) = f x y z := by
  simp [RegForm.build, field4, field18, field23]
theorem build_sss {f : Src → Src → Src → Instr} (x y z : Src) :
    RegForm.build (.sss f) (regWord op z.bits y.bits x.bits) = f x y z := by
  simp [RegForm.build, field4, field18, field23]
theorem build_ff {f : FSrc → FDst → Instr} {x : FSrc} {y : FDst} {n m : Nat}
    (h : (x.ok false n && y.ok false m) = true) : RegForm.build (.ff f) (regWord op y.bits p x.bits) = f x y := by
  obtain ⟨hx, hy⟩ := Bool.and_eq_true_iff.1 h
  simp [RegForm.build, field4, field23, toFSrc_bits hx, toFDst_bits hy]
theorem build_fff {f : FSrc → FSrc → FDst → Instr} {x y : FSrc} {z : FDst} {n m k : Nat}
    (h : (x.ok false n && y.ok false m && z.ok false k) = true) :
    RegForm.build (.fff f) (regWord op z.bits y.bits x.bits) = f x y z := by
  obtain ⟨hxy, hz⟩ := Bool.and_eq_true_iff.1 h
  obtain ⟨hx, hy⟩ := Bool.and_eq_true_iff.1 hxy
  simp [RegForm.build, field4, field18, field23, toFSrc_bits hx, toFSrc_bits hy, toFDst_bits hz]
theorem build_sff {f : Src → FSrc → FDst → Instr} {x : Src} {y : FSrc} {z : FDst} {n m : Nat}
    (h : (y.ok false n && z.ok false m) = true) :
    RegForm.build (.sff f) (regWord op z.bits y.bits x.bits) = f x y z := by
  obtain ⟨hy, hz⟩ := Bool.and_eq_true_iff.1 h
  simp [RegForm.build, field4, field18, field23, toFSrc_bits hy, toFDst_bits hz]
theorem build_sf {f : Src → FDst → Instr} {x : Src} {y : FDst} {n : Nat} (h : y.ok false n = true) :
    RegForm.build (.sf f) (regWord op y.bits p x.bits) = f x y := by
  simp [RegForm.build, field4, field23, toFDst_bits h]
theorem build_fd {f : FSrc → Dst → Instr} {x : FSrc} {y : Dst} {n : Nat} (h : x.ok false n = true) :
    RegForm.build (.fd f) (regWord op y.bits p x.bits) = f x y := by
  simp [RegForm.build, field4, field23, toFSrc_bits h]
theorem build_fCompare {f : FSrc → FSrc → Instr} {x y : FSrc} {n m : Nat} (h : (x.ok false n && y.ok false m) = true) :
    RegForm.build (.fCompare f) (regWord op p y.bits x.bits) = f x y := by
  obtain ⟨hx, hy⟩ := Bool.and_eq_true_iff.1 h
  simp [RegForm.build, field4, field18, toFSrc_bits hx, toFSrc_bits hy]
theorem build_fClass {f : FSrc → Instr} {x : FSrc} {n : Nat} (h : x.ok false n = true) :
    RegForm.build (.fClass f) (regWord op p q x.bits) = f x := by
  simp [RegForm.build, field4, toFSrc_bits h]

end Build

/-! ### The row of the opcode tables that an instruction is encoded by -/

/-- How an instruction is encoded: its words, the table row of its opcode, and that the row builds it from its operands. -/
inductive EncodedAs (i : Instr) : Prop
  | ctrlTarg {op : BitVec 8} {d : BitVec 22} {f : BitVec 22 → Instr} (henc : encode i = [ctrlWord op d])
      (hrow : ctrlTable.lookup op.toNat = some (.targ f)) (hi : f d = i) (hop : op.toNat < 0x20)
  | ctrlNone {op : BitVec 8} (henc : encode i = [ctrlWord op 0#22]) (hrow : ctrlTable.lookup op.toNat = some (.none i))
      (hop : op.toNat < 0x20)
  | cobrTest {op : BitVec 8} {r : Reg} {f : Reg → Instr} (henc : encode i = [cobrWord op r 0#5 false 0#11])
      (hrow : cobrTable.lookup op.toNat = some (.test f)) (hi : f r = i) (hop : 0x20 ≤ op.toNat ∧ op.toNat < 0x40)
  | cobrBranch {op : BitVec 8} {x : Src} {y : Reg} {d : BitVec 11} {f : Src → Reg → BitVec 11 → Instr}
      (henc : encode i = [cobrWord op x.bits.2 y x.bits.1 d]) (hrow : cobrTable.lookup op.toNat = some (.branch f))
      (hi : f x y d = i) (hop : 0x20 ≤ op.toNat ∧ op.toNat < 0x40)
  | memReg {op : BitVec 8} {r : Reg} {m : MemOp} {f : Reg → MemOp → Instr} (henc : encode i = memWords op r m)
      (hrow : memTable.lookup op.toNat = some (.reg f)) (hi : f r m = i) (hop : 0x80 ≤ op.toNat)
  | memTarg {op : BitVec 8} {m : MemOp} {f : MemOp → Instr} (henc : encode i = memWords op 0#5 m)
      (hrow : memTable.lookup op.toNat = some (.targ f)) (hi : f m = i) (hop : 0x80 ≤ op.toNat)
  | reg {op : BitVec 12} {p q r : Bool × BitVec 5} {form : RegForm} (henc : encode i = [regWord op p q r])
      (hrow : regTable.lookup op.toNat = some form) (hlow : 0x40 ≤ (op.extractLsb' 4 8).toNat)
      (hop : (op.extractLsb' 4 8).toNat < 0x80) (hi : i.encodable = true → form.build (regWord op p q r) = i)

/-- The row of each instruction, by the operands it takes (R160). -/
theorem encodedAs (i : Instr) : EncodedAs i := by
  cases i with
  | b d | call d | bal d | bno d | bg d | be d | bge d | bl d | bne d | ble d | bo d =>
    exact .ctrlTarg rfl rfl rfl (by decide)
  | ret | faultno | faultg | faulte | faultge | faultl | faultne | faultle | faulto =>
    exact .ctrlNone rfl rfl (by decide)
  | testno r | testg r | teste r | testge r | testl r | testne r | testle r | testo r =>
    exact .cobrTest rfl rfl rfl (by decide)
  | bbc x y d | cmpobg x y d | cmpobe x y d | cmpobge x y d | cmpobl x y d | cmpobne x y d | cmpoble x y d
  | bbs x y d | cmpibno x y d | cmpibg x y d | cmpibe x y d | cmpibge x y d | cmpibl x y d | cmpibne x y d
  | cmpible x y d | cmpibo x y d =>
    exact .cobrBranch rfl rfl rfl (by decide)
  | ldob r m | stob r m | balx r m | ldos r m | stos r m | lda r m | ld r m | st r m | ldl r m | stl r m
  | ldt r m | stt r m | ldq r m | stq r m | ldib r m | stib r m | ldis r m | stis r m =>
    exact .memReg rfl rfl rfl (by decide)
  | bx m | callx m => exact .memTarg rfl rfl rfl (by decide)
  | notbit x y z | and x y z | andnot x y z | setbit x y z | notand x y z | xor x y z | or x y z | nor x y z
  | xnor x y z | ornot x y z | clrbit x y z | notor x y z | nand x y z | alterbit x y z | addo x y z
  | addi x y z | subo x y z | subi x y z | shro x y z | shrdi x y z | shri x y z | shlo x y z | rotate x y z
  | shli x y z | cmpinco x y z | cmpinci x y z | cmpdeco x y z | cmpdeci x y z | addc x y z | subc x y z
  | atmod x y z | atadd x y z | daddc x y z | dsubc x y z | modac x y z | modify x y z | extract x y z
  | modtc x y z | modpc x y z | emul x y z | ediv x y z | mulo x y z | remo x y z | divo x y z | muli x y z
  | remi x y z | modi x y z | divi x y z =>
    exact .reg rfl rfl (by decide) (by decide) fun _ => build_ssd _ _ _
  | not x y | mov x y | movl x y | movt x y | movq x y | inspacc x y | ldphy x y | synld x y | spanbit x y
  | scanbit x y | dmovt x y | condrec x y | receive x y =>
    exact .reg rfl rfl (by decide) (by decide) fun _ => build_sd _ _
  | cmpo x y | cmpi x y | concmpo x y | concmpi x y | scanbyte x y | chkbit x y | synmov x y | synmovl x y
  | synmovq x y =>
    exact .reg rfl rfl (by decide) (by decide) fun _ => build_ss _ _
  | cmpstr x y z | movqstr x y z | movstr x y z | fill x y z | send x y z =>
    exact .reg rfl rfl (by decide) (by decide) fun _ => build_sss _ _ _
  | calls x | sendserv x | resumprcs x | schedprcs x | condwait x | wait x | signal x =>
    exact .reg rfl rfl (by decide) (by decide) fun _ => build_s _
  | saveprcs | mark | fmark | flushreg | syncf => exact .reg rfl rfl (by decide) (by decide) fun _ => build_none
  | ldtime x => exact .reg rfl rfl (by decide) (by decide) fun _ => build_d _
  | cvtir x y => exact .reg rfl rfl (by decide) (by decide) fun h => build_sf h
  | cvtilr x y => exact .reg rfl rfl (by decide) (by decide) fun h => build_sf (Bool.and_eq_true_iff.1 h).2
  | scalerl x y z | scaler x y z => exact .reg rfl rfl (by decide) (by decide) fun h => build_sff h
  | atanr x y z | logepr x y z | logr x y z | remr x y z | atanrl x y z | logeprl x y z | logrl x y z
  | remrl x y z | cpysre x y z | cpyrsre x y z | divr x y z | mulr x y z | subr x y z | addr x y z
  | divrl x y z | mulrl x y z | subrl x y z | addrl x y z =>
    exact .reg rfl rfl (by decide) (by decide) fun h => build_fff h
  | cmpor x y | cmpr x y | cmporl x y | cmprl x y =>
    exact .reg rfl rfl (by decide) (by decide) fun h => build_fCompare h
  | sqrtr x y | expr x y | logbnr x y | roundr x y | sinr x y | cosr x y | tanr x y | sqrtrl x y | exprl x y
  | logbnrl x y | roundrl x y | sinrl x y | cosrl x y | tanrl x y | movr x y | movrl x y | movre x y =>
    exact .reg rfl rfl (by decide) (by decide) fun h => build_ff h
  | classr x | classrl x => exact .reg rfl rfl (by decide) (by decide) fun h => build_fClass h
  | cvtri x y | cvtzri x y => exact .reg rfl rfl (by decide) (by decide) fun h => build_fd h
  | cvtril x y | cvtzril x y =>
    exact .reg rfl rfl (by decide) (by decide) fun h => build_fd (Bool.and_eq_true_iff.1 h).1

/-! ### Decoding each shape of word -/

section Words

variable {op : BitVec 8} {rest : List Word}

/-- A word with an opcode of the REG format, whose bits 6:5 are 0 (R132, R133). -/
theorem decode_reg {w : Word} {form : RegForm} (h : regTable.lookup (regOpcodeOf w) = some form)
    (hlow : 0x40 ≤ opcodeOf w) (hop : opcodeOf w < 0x80) :
    decode (w :: rest) = if sfrBits w ≠ 0 then .error .reservedBits else .ok (form.build w, rest) := by
  have h1 : ¬ opcodeOf w < 0x20 := by omega
  have h2 : ¬ opcodeOf w < 0x40 := by omega
  simp only [decode, decodeWord, h1, h2, hop, if_true, if_false, decodeReg, h]

/-- A word with an opcode of the MEM format (R137, R148). -/
theorem decode_mem {w : Word} (hop : 0x80 ≤ opcodeOf w) : decode (w :: rest) = decodeMem w rest := by
  have h1 : ¬ opcodeOf w < 0x20 := by omega
  have h2 : ¬ opcodeOf w < 0x40 := by omega
  have h3 : ¬ opcodeOf w < 0x80 := by omega
  simp only [decode, decodeWord, h1, h2, h3, if_false]

/-- The memory operand of a MEM word, and the words after the instruction (R149, R150). -/
theorem decodeMemOp_memWords (m : MemOp) (r : Reg) :
    ∃ w more, memWords op r m ++ rest = w :: more ∧ opcodeOf w = op.toNat ∧ field23 w = r ∧
      decodeMemOp w more = .ok (m, rest) := by
  cases m <;> refine ⟨_, _, rfl, ?_, ?_, ?_⟩ <;>
    simp [field23, decodeMemOp, field18, field4, sfrBits, indexed, unindexed, withDisp]

end Words

/-- Settles O1: every instruction has a row, and each shape of row reads back the words of its operands. -/
theorem encodeThenDecode : Obligations.EncodeThenDecode := by
  unfold Obligations.EncodeThenDecode
  intro i rest hi
  cases encodedAs i with
  | ctrlTarg henc hrow hf hop =>
    simp [henc, decode, decodeWord, decodeCtrl, hop, hrow, lowBits, hf]
  | ctrlNone henc hrow hop =>
    simp [henc, decode, decodeWord, decodeCtrl, hop, hrow, lowBits]
  | cobrTest henc hrow hf hop =>
    simp [henc, decode, decodeWord, decodeCobr, Nat.not_lt.2 hop.1, hop.2, hrow, lowBits, field23, hf]
  | cobrBranch henc hrow hf hop =>
    simp [henc, decode, decodeWord, decodeCobr, Nat.not_lt.2 hop.1, hop.2, hrow, lowBits, field23, field18, hf]
  | @memReg op r m f henc hrow hf hop =>
    obtain ⟨w, more, hw, hwop, hr, hm⟩ := decodeMemOp_memWords (op := op) (rest := rest) m r
    rw [henc, hw, decode_mem (hwop ▸ hop)]
    simp only [decodeMem, hwop, hrow, hm, hr, hf]
  | @memTarg op m f henc hrow hf hop =>
    obtain ⟨w, more, hw, hwop, -, hm⟩ := decodeMemOp_memWords (op := op) (rest := rest) m 0#5
    rw [henc, hw, decode_mem (hwop ▸ hop)]
    simp only [decodeMem, hwop, hrow, hm, hf]
  | reg henc hrow hlow hop hf =>
    rw [henc, List.singleton_append, decode_reg (by rw [regOpcodeOf_regWord]; exact hrow)
      (by rw [opcodeOf_regWord]; exact hlow) (by rw [opcodeOf_regWord]; exact hop), hf hi]
    simp [sfrBits]

end Sys2Proof.Machine
end

section
/-! SUPPORT. The words that no instruction has, and the reserved bits of those that one has (R150, R151, R165, R166). -/

namespace Sys2Proof.Machine

/-! ### Words whose opcode an instruction has (R131, R160) -/

/-- The tables have a row for the opcode of `w`. -/
def HasRow (w : Word) : Prop :=
  if opcodeOf w < 0x20 then (ctrlTable.lookup (opcodeOf w)).isSome
  else if opcodeOf w < 0x40 then (cobrTable.lookup (opcodeOf w)).isSome
  else if opcodeOf w < 0x80 then (regTable.lookup (regOpcodeOf w)).isSome
  else (memTable.lookup (opcodeOf w)).isSome

/-- An instruction has the opcode of `w`, in the REG format all 12 bits of it. -/
def SameOpcode (i : Instr) (w : Word) : Prop :=
  opcodeOf ((encode i).headD 0) = opcodeOf w ∧
    (0x40 ≤ opcodeOf w → opcodeOf w < 0x80 → regOpcodeOf ((encode i).headD 0) = regOpcodeOf w)

/-- Bits 31:24 are the high ones of the 12-bit opcode (R133). -/
theorem regOpcodeOf_div (w : Word) : regOpcodeOf w / 16 = opcodeOf w := by
  have h := (w.extractLsb' 7 4).isLt
  simp only [regOpcodeOf, opcodeOf, BitVec.toNat_append, Nat.shiftLeft_eq]
  rw [Nat.mul_comm, ← Nat.two_pow_add_eq_or_of_lt h]
  omega

/-- The opcode of an instruction's first word has a row. -/
theorem hasRow_encode (i : Instr) : HasRow ((encode i).headD 0) := by
  unfold HasRow
  cases encodedAs i with
  | ctrlTarg henc hrow hf hop => simp [henc, hop, hrow]
  | ctrlNone henc hrow hop => simp [henc, hop, hrow]
  | cobrTest henc hrow hf hop => simp [henc, Nat.not_lt.2 hop.1, hop.2, hrow]
  | cobrBranch henc hrow hf hop => simp [henc, Nat.not_lt.2 hop.1, hop.2, hrow]
  | @memReg op r m f henc hrow hf hop =>
    obtain ⟨w, more, hw, hwop, -, -⟩ := decodeMemOp_memWords (op := op) (rest := []) m r
    rw [List.append_nil] at hw
    simp [henc, hw, hwop, hrow, show ¬ op.toNat < 0x20 by omega, show ¬ op.toNat < 0x40 by omega,
      show ¬ op.toNat < 0x80 by omega]
  | @memTarg op m f henc hrow hf hop =>
    obtain ⟨w, more, hw, hwop, -, -⟩ := decodeMemOp_memWords (op := op) (rest := []) m 0#5
    rw [List.append_nil] at hw
    simp [henc, hw, hwop, hrow, show ¬ op.toNat < 0x20 by omega, show ¬ op.toNat < 0x40 by omega,
      show ¬ op.toNat < 0x80 by omega]
  | @reg op p q r form henc hrow hlow hop hf =>
    rw [henc, List.headD_cons, opcodeOf_regWord, regOpcodeOf_regWord, hrow, if_neg (by omega), if_neg (by omega),
      if_pos hop]
    rfl

theorem SameOpcode.hasRow {i : Instr} {w : Word} (h : SameOpcode i w) : HasRow w := by
  have hi := hasRow_encode i
  obtain ⟨hop, hreg⟩ := h
  unfold HasRow at hi ⊢
  rw [hop] at hi
  by_cases h1 : opcodeOf w < 0x40
  · simpa only [h1, if_true] using hi
  · by_cases h2 : opcodeOf w < 0x80
    · simpa only [h2, if_true, hreg (by omega) h2] using hi
    · simpa only [h1, h2, if_false] using hi

/-- An instruction a row builds, with every operand 0. -/
def ctrlSample : CtrlForm → Instr
  | .targ f => f 0#22
  | .none i => i

/-- An instruction a row builds, with every operand 0. -/
def cobrSample : CobrForm → Instr
  | .test f => f 0#5
  | .branch f => f (.lit 0#5) 0#5 0#11

/-- An instruction a row builds, with every operand 0. -/
def memSample : MemForm → Instr
  | .reg f => f 0#5 (.offset 0#12)
  | .targ f => f (.offset 0#12)

theorem ctrlTable_sample : ∀ row ∈ ctrlTable, opcodeOf ((encode (ctrlSample row.2)).headD 0) = row.1 := by decide +kernel
theorem cobrTable_sample : ∀ row ∈ cobrTable, opcodeOf ((encode (cobrSample row.2)).headD 0) = row.1 := by decide +kernel
theorem memTable_sample : ∀ row ∈ memTable, opcodeOf ((encode (memSample row.2)).headD 0) = row.1 := by decide +kernel
theorem regTable_sample : ∀ row ∈ regTable, regOpcodeOf ((encode (row.2.build 0#32)).headD 0) = row.1 := by
  decide +kernel

/-- What a lookup finds is a row of the table. -/
theorem mem_of_lookup {α : Type} {k : Nat} {v : α} {l : List (Nat × α)} (h : l.lookup k = some v) : (k, v) ∈ l := by
  obtain ⟨a, b, rfl, -⟩ := List.lookup_eq_some_iff.1 h
  simp

/-- A row's opcode is an instruction's. -/
theorem HasRow.sameOpcode {w : Word} (h : HasRow w) : ∃ i, SameOpcode i w := by
  unfold HasRow at h
  split at h
  case isTrue hop =>
    obtain ⟨form, hrow⟩ := Option.isSome_iff_exists.1 h
    exact ⟨_, ctrlTable_sample _ (mem_of_lookup hrow), fun h1 => by omega⟩
  split at h
  case isTrue hop =>
    obtain ⟨form, hrow⟩ := Option.isSome_iff_exists.1 h
    exact ⟨_, cobrTable_sample _ (mem_of_lookup hrow), fun h1 => by omega⟩
  split at h
  case isTrue hop =>
    obtain ⟨form, hrow⟩ := Option.isSome_iff_exists.1 h
    have hreg := regTable_sample _ (mem_of_lookup hrow)
    refine ⟨_, ?_, fun _ _ => hreg⟩
    rw [← regOpcodeOf_div, hreg, regOpcodeOf_div]
  case isFalse hop =>
    obtain ⟨form, hrow⟩ := Option.isSome_iff_exists.1 h
    exact ⟨_, memTable_sample _ (mem_of_lookup hrow), fun _ h1 => absurd h1 hop⟩

/-! ### Decoding words that are no instruction -/

/-- An opcode without a row is unknown (R165). -/
theorem decode_unknown {w : Word} (h : ¬ HasRow w) (rest : List Word) :
    decode (w :: rest) = .error .unknownOpcode := by
  simp only [HasRow] at h
  simp only [decode, decodeWord]
  split
  case isTrue hop =>
    rw [if_pos hop] at h
    rw [decodeCtrl, Option.not_isSome_iff_eq_none.1 h]
  case isFalse hop =>
    rw [if_neg hop] at h
    split
    case isTrue hop =>
      rw [if_pos hop] at h
      rw [decodeCobr, Option.not_isSome_iff_eq_none.1 h]
    case isFalse hop =>
      rw [if_neg hop] at h
      split
      case isTrue hop =>
        rw [if_pos hop] at h
        rw [decodeReg, Option.not_isSome_iff_eq_none.1 h]
      case isFalse hop =>
        rw [if_neg hop] at h
        rw [decodeMem, Option.not_isSome_iff_eq_none.1 h]

/-- The MEM opcode of an instruction has a row. -/
theorem HasRow.mem {w : Word} (h : HasRow w) (hop : 0x80 ≤ opcodeOf w) :
    ∃ form, memTable.lookup (opcodeOf w) = some form := by
  unfold HasRow at h
  rw [if_neg (by omega), if_neg (by omega), if_neg (by omega)] at h
  exact Option.isSome_iff_exists.1 h

/-- A MEM word is no instruction if its memory operand is none. -/
theorem decode_memError {w : Word} {rest : List Word} {e : DecodeError} (h : HasRow w) (hop : 0x80 ≤ opcodeOf w)
    (he : decodeMemOp w rest = .error e) : decode (w :: rest) = .error e := by
  obtain ⟨form, hrow⟩ := h.mem hop
  rw [decode_mem hop]
  simp only [decodeMem, hrow, he]

/-- The scale values from 0b101 up are reserved (R151). -/
theorem toScale_reserved {c : BitVec 3} (h : 0b101#3 ≤ c) : toScale c = none := by
  revert c; decide

/-- R150, R151: the reserved MEMB mode, and a reserved scale where an index is used. -/
theorem decodeMemOp_reserved {w : Word} (rest : List Word) (hform : w.getLsbD 12 = true) (hsfr : w.extractLsb' 5 2 = 0#2)
    (h : w.extractLsb' 10 4 = 0b0110#4 ∨
      (w.extractLsb' 10 4 ∈ [0b0111#4, 0b1110#4, 0b1111#4] ∧ 0b101#3 ≤ w.extractLsb' 7 3)) :
    decodeMemOp w rest = .error .reservedMode ∨ decodeMemOp w rest = .error .reservedScale := by
  rcases h with h | ⟨h, hscale⟩
  · exact .inl (by simp [decodeMemOp, bitAt, hform, sfrBits, hsfr, h])
  · refine .inr ?_
    simp only [List.mem_cons, List.not_mem_nil, or_false] at h
    rcases h with h | h | h <;>
      simp [decodeMemOp, bitAt, hform, sfrBits, hsfr, h, indexed, toScale_reserved hscale]

/-- A reserved encoding comes to an invalid opcode, whatever word follows it. -/
theorem decoded_reservedWord {w : Word} (h : ReservedWord w) (rest : List Word) :
    decoded (decode (w :: rest)) = .raise .invalidOpcode := by
  rcases h with ⟨⟨i, hi⟩, hop, hform, hsfr, hmode⟩ | h
  · have hrow : HasRow w := SameOpcode.hasRow ⟨hi, fun _ h => by omega⟩
    rcases decodeMemOp_reserved rest hform hsfr hmode with he | he <;>
      rw [decode_memError hrow hop he] <;> rfl
  · have hrow : ¬ HasRow w := by
      intro hrow
      obtain ⟨i, hi, hreg⟩ := hrow.sameOpcode
      rcases h i with hne | ⟨h1, h2, hne⟩
      · exact hne hi
      · exact hne (hreg h1 h2)
    rw [decode_unknown hrow]
    rfl

/-- A word with an instruction's opcode and a bit set where the formats show "0 0" (R166). -/
theorem decode_reservedBits {w : Word} (rest : List Word) (h : HasRow w)
    (hlow : opcodeOf w < 0x40 → w.extractLsb' 0 2 ≠ 0#2) (hsfr : 0x40 ≤ opcodeOf w → w.extractLsb' 5 2 ≠ 0#2)
    (hform : 0x80 ≤ opcodeOf w → w.getLsbD 12 = true) : decode (w :: rest) = .error .reservedBits := by
  by_cases hmem : 0x80 ≤ opcodeOf w
  · refine decode_memError h hmem ?_
    simp [decodeMemOp, bitAt, hform hmem, sfrBits, hsfr (by omega)]
  · unfold HasRow at h
    simp only [decode, decodeWord]
    split
    case isTrue hop =>
      rw [if_pos hop] at h
      obtain ⟨form, hrow⟩ := Option.isSome_iff_exists.1 h
      simp [decodeCtrl, hrow, lowBits, hlow (by omega)]
    case isFalse hop =>
      rw [if_neg hop] at h
      split
      case isTrue hop =>
        rw [if_pos hop] at h
        obtain ⟨form, hrow⟩ := Option.isSome_iff_exists.1 h
        simp [decodeCobr, hrow, lowBits, hlow (by omega)]
      case isFalse hop =>
        rw [if_neg hop, if_pos (by omega)] at h
        obtain ⟨form, hrow⟩ := Option.isSome_iff_exists.1 h
        rw [if_pos (by omega)]
        simp [decodeReg, hrow, sfrBits, hsfr (by omega)]

/-- A word that comes to an invalid opcode is fetched as that fault. -/
theorem State.fetch_raise {s : State} {w : Word} {e : Exn} (hw : s.fetchWord s.ip = .ok w)
    (hd : hasDisplacement w = true → ∃ d, s.fetchWord (s.ip + 4#32) = .ok d)
    (h : ∀ rest, decoded (decode (w :: rest)) = .raise e) : s.fetch = .raise e := by
  unfold State.fetch
  rw [hw, Eff.bind_ok]
  split
  case isTrue hdisp =>
    obtain ⟨d, hd⟩ := hd hdisp
    rw [hd, Eff.bind_ok, h]
  case isFalse => exact h []

/-- Settles O4: a reserved word is an unknown opcode, a reserved mode or a reserved scale; bits that must be 0 are looked
at in the words of the tables' opcodes. -/
theorem reservedEncodings : Obligations.ReservedEncodings := by
  unfold Obligations.ReservedEncodings
  refine ⟨fun s w hw hfetch hdisp => ?_, fun w rest ⟨i, hi⟩ hlow hsfr hform => ?_⟩
  · rw [runInstruction, State.fetch_raise hfetch hdisp (decoded_reservedWord hw)]
  · exact decode_reservedBits rest (SameOpcode.hasRow hi) hlow hsfr hform

/-- Settles O3: the decoder evaluated on each word. -/
theorem chosenWordsDecode : Obligations.ChosenWordsDecode := by
  unfold Obligations.ChosenWordsDecode
  refine ⟨?_, ?_, ?_, ?_, ?_, ?_, ?_, ?_⟩ <;> rfl

end Sys2Proof.Machine
end

section
/-! SUPPORT. What an instruction can do to the invariant and to the process controls, said once for every instruction but
those that change the process controls by their own effect. -/

namespace Sys2Proof.Machine

/-! ### Steps that keep the invariant and the process controls -/

/-- `t` keeps the invariant if `s` has it, and the process controls. -/
structure Keeps (s t : State) : Prop where
  inv : s.Inv → t.Inv
  pctl : t.pctl = s.pctl

/-- An instruction that ends in a next state ends in one that keeps the invariant and the process controls, or in a fault
taken from such a state, but that a trace fault is pending in it. -/
def Ordinary (s : State) (x : Res) : Prop :=
  ∀ t, x = .next t → Keeps s t ∨ ∃ (e : Exn) (a : Word) (u : State), takeFault e s.ip a u = .next t ∧ (s.Inv → u.Inv) ∧
    (u.pctl = s.pctl ∨ u.pctl = s.pctl ||| BitVec.twoPow 32 10) ∧ (a = s.ip ∨ a = u.ip)

namespace Keeps

variable {s t u : State}

theorem refl (s : State) : Keeps s s := ⟨id, rfl⟩
theorem trans (h : Keeps s t) (k : Keeps t u) : Keeps s u := ⟨k.inv ∘ h.inv, k.pctl.trans h.pctl⟩
theorem memStep (h : s.MemStep t) : Keeps s t := ⟨fun i => i.memStep h, h.pctl⟩
theorem regStep (h : s.RegStep t) : Keeps s t := ⟨fun i => i.regStep h, h.sameSpecial.pctl⟩
theorem setReg (s : State) (r : Reg) (v : Word) : Keeps s (s.setReg r v) := .regStep (State.setReg_regStep s r v)
theorem setRegs (s : State) (r : Reg) (ws : List Word) : Keeps s (s.setRegs r ws) :=
  .regStep (State.setRegs_regStep ws r s)
theorem advance (s : State) {n : Word} (hn : n &&& 3#32 = 0#32) : Keeps s (s.advance n) :=
  ⟨fun i => i.advance hn, rfl⟩
theorem goto (s : State) (a : Word) : Keeps s (s.goto a) := ⟨fun i => i.goto a, rfl⟩
theorem setAc (s : State) (ac : ArithControls) : Keeps s { s with ac := ac } :=
  ⟨fun i => ⟨i.mem, i.ip, i.cached, i.tctl⟩, rfl⟩
theorem setFps (s : State) (fps : Vector Ext 4) : Keeps s { s with fps := fps } :=
  ⟨fun i => ⟨i.mem, i.ip, i.cached, i.tctl⟩, rfl⟩
theorem setIcr (s : State) (v : Word) : Keeps s { s with icr := v } :=
  ⟨fun i => ⟨i.mem, i.ip, i.cached, i.tctl⟩, rfl⟩
theorem setCc (s : State) (c : BitVec 3) : Keeps s (s.setCc c) := .setAc s _
theorem setStatus (s : State) (v : BitVec 4) : Keeps s (s.setStatus v) := .setAc s _
theorem event (s : State) (e : BitVec 8) : Keeps s (s.event e) := ⟨fun i => i.setTraced _, rfl⟩

/-- A branch to a word boundary. -/
theorem branch (s : State) {a : Word} (ha : s.ip &&& 3#32 = 0#32 → a &&& 3#32 = 0#32) : Keeps s (s.branch a) :=
  ⟨fun i => ⟨i.mem, ha i.ip, i.cached, i.tctl⟩, rfl⟩

theorem branchIf (s : State) (taken : Bool) {a : Word} (ha : s.ip &&& 3#32 = 0#32 → a &&& 3#32 = 0#32) :
    Keeps s (s.branchIf taken a) := by
  unfold State.branchIf
  split
  · exact .branch s ha
  · exact .advance s rfl

theorem enterFrame (s : State) (a b c : Word) : Keeps s (s.enterFrame a b c) := by
  refine ⟨fun i => i.enterFrame a b c, ?_⟩
  obtain ⟨u, hu, -, e⟩ := State.enterFrame_cases a b c s
  rw [e]
  exact hu.pctl

theorem doCall (s : State) (target base status len : Word) : Keeps s (s.doCall target base status len) :=
  ((enterFrame s _ _ _).trans (.event _ _)).trans (.goto _ _)

theorem advance_four (s : State) : Keeps s (s.advance 4#32) := .advance s rfl

end Keeps

/-! ### Targets on word boundaries -/

theorem memLength_aligned (m : MemOp) : memLength m &&& 3#32 = 0#32 := by cases m <;> simp [memLength]

theorem ctrlTarget_aligned {ip : Word} (d : BitVec 22) (h : ip &&& 3#32 = 0#32) : ctrlTarget ip d &&& 3#32 = 0#32 := by
  refine aligned_add h ?_
  apply BitVec.eq_of_getLsbD_eq
  intro i hi
  have h3 : (3#32).getLsbD i = decide (i < 2) := by revert i; decide
  simp only [BitVec.getLsbD_and, h3, BitVec.getLsbD_signExtend, BitVec.getLsbD_append, BitVec.getLsbD_zero]
  by_cases hi2 : i < 2
  · simp [hi2, show i < 22 + 2 by omega]
  · simp [hi2]

theorem cobrTarget_aligned {ip : Word} (d : BitVec 11) (h : ip &&& 3#32 = 0#32) : cobrTarget ip d &&& 3#32 = 0#32 := by
  refine aligned_add h ?_
  apply BitVec.eq_of_getLsbD_eq
  intro i hi
  have h3 : (3#32).getLsbD i = decide (i < 2) := by revert i; decide
  simp only [BitVec.getLsbD_and, h3, BitVec.getLsbD_signExtend, BitVec.getLsbD_append, BitVec.getLsbD_zero]
  by_cases hi2 : i < 2
  · simp [hi2, show i < 11 + 2 by omega]
  · simp [hi2]

/-! ### How instructions end -/

namespace Ordinary

variable {s t : State} {α : Type}

theorem next (h : Keeps s t) : Ordinary s (.next t) := fun _ e => by cases e; exact .inl h

theorem refused (r : Refusal) : Ordinary s (.refused r) := fun _ e => by cases e

/-- A fault of the instruction itself. -/
theorem fault (e : Exn) (h : Keeps s t) : Ordinary s (takeFault e s.ip s.ip t) :=
  fun _ k => .inr ⟨e, s.ip, t, k, h.inv, .inl h.pctl, .inl rfl⟩

/-- A fault after the instruction. -/
theorem faultAfter (e : Exn) (h : Keeps s t) : Ordinary s (Machine.faultAfter e s.ip t) :=
  fun _ k => .inr ⟨e, t.ip, t, k, h.inv, .inl h.pctl, .inr rfl⟩

/-- A trace fault. -/
theorem raiseTrace (events : BitVec 8) {a : Word} (h : Keeps s t) (ha : a = s.ip ∨ a = t.ip) :
    Ordinary s (Machine.raiseTrace events s.ip a t) := by
  refine fun _ k => .inr ⟨_, a, _, k, fun i => ?_, .inr (by rw [← h.pctl]; rfl), ha⟩
  have j := h.inv i
  exact ⟨j.mem, j.ip, j.cached, recordEvents_reserved j.tctl⟩

theorem integerOverflow (h : Keeps s t) : Ordinary s (Machine.integerOverflow s.ip t) := by
  unfold Machine.integerOverflow
  split
  · exact .next (h.trans (.setAc _ _))
  · exact .faultAfter _ h

theorem commitThen {x : Eff α} {k : α → Res} (h : ∀ a, x = .ok a → Ordinary s (k a)) :
    Ordinary s (s.commitThen x k) := by
  cases x with
  | ok a => exact h a rfl
  | raise e => exact .fault e (.refl s)
  | refuse r => exact .refused r

theorem commit {x : Eff State} (h : ∀ t, x = .ok t → Keeps s t) : Ordinary s (s.commit x) :=
  .commitThen fun t ht => .next (h t ht)

theorem unlessZero (d : Word) {x : Res} (h : Ordinary s x) : Ordinary s (Machine.unlessZero s d x) := by
  unfold Machine.unlessZero
  split
  · exact .fault _ (.refl s)
  · exact h

/-- An instruction keeps the invariant if it is ordinary. -/
theorem inv {x : Res} (h : Ordinary s x) (i : s.Inv) (e : x = .next t) : t.Inv := by
  rcases h t e with k | ⟨e, a, u, k, hu, -, -⟩
  · exact k.inv i
  · exact (hu i).takeFault k

end Ordinary

/-! ### Destinations -/

section Destinations

variable {s t : State} {d : Dst}

theorem strayWrite_keeps (h : strayWrite s = .ok t) : Keeps s t := by
  unfold strayWrite at h
  split at h <;> cases h
  exact .setReg _ _ _

theorem dstWrite_keeps {v : Word} (h : dstWrite d v s = .ok t) : Keeps s t := by
  cases d with
  | reg r => cases h; exact .setReg _ _ _
  | lit n => exact strayWrite_keeps h

theorem aligned_eq_ok {α : Type} {n : Nat} {r : Reg} {x : Eff α} {a : α} (h : aligned n r x = .ok a) : x = .ok a := by
  unfold aligned at h
  split at h
  · exact h
  · cases h

theorem dstWriteWords_keeps {ws : List Word} (h : dstWriteWords d ws s = .ok t) : Keeps s t := by
  cases d with
  | reg r => cases aligned_eq_ok h; exact .setRegs _ _ _
  | lit n => exact strayWrite_keeps h

theorem result_ordinary (s : State) (d : Dst) (v : Word) : Ordinary s (s.result d v) := by
  refine .commit fun t ht => ?_
  obtain ⟨u, hu, rfl⟩ := Eff.map_eq_ok.1 ht
  exact (dstWrite_keeps hu).trans (.advance_four _)

theorem resultCc_ordinary (s : State) (d : Dst) (v : Word) (c : BitVec 3) : Ordinary s (s.resultCc d v c) := by
  refine .commit fun t ht => ?_
  obtain ⟨u, hu, rfl⟩ := Eff.map_eq_ok.1 ht
  exact ((dstWrite_keeps hu).trans (.setCc _ _)).trans (.advance_four _)

theorem resultWords_ordinary (s : State) (d : Dst) (ws : List Word) : Ordinary s (s.resultWords d ws) := by
  refine .commit fun t ht => ?_
  obtain ⟨u, hu, rfl⟩ := Eff.map_eq_ok.1 ht
  exact (dstWriteWords_keeps hu).trans (.advance_four _)

theorem resultOverflow_ordinary (s : State) (d : Dst) (v : Word) (b : Bool) : Ordinary s (s.resultOverflow d v b) := by
  refine .commitThen fun t ht => ?_
  have h := (dstWrite_keeps ht).trans (.advance_four t)
  split
  · exact .integerOverflow h
  · exact .next h

theorem resultOnlyCc_ordinary (s : State) (c : BitVec 3) : Ordinary s (s.resultOnlyCc c) :=
  .next ((Keeps.setCc _ _).trans (.advance_four _))

end Destinations

/-! ### The shapes of instructions -/

section Shapes

variable (s : State)

theorem ediv_ordinary (x y : Src) (d : Dst) : Ordinary s (execEdiv x y d s) :=
  .commitThen fun _ _ => .unlessZero _ (resultWords_ordinary _ _ _)

theorem branchOn_ordinary (m : BitVec 3) (d : BitVec 22) : Ordinary s (branchOn s m d) :=
  .next (.branchIf s _ (ctrlTarget_aligned d))

theorem compareBranch_ordinary (f : Word → Word → BitVec 3) (m : BitVec 3) (x : Src) (y : Reg) (d : BitVec 11) :
    Ordinary s (compareBranch s f m x y d) :=
  .next ((Keeps.setCc _ _).trans (.branchIf _ _ (cobrTarget_aligned d)))

theorem bitBranch_ordinary (b : Bool) (x : Src) (y : Reg) (d : BitVec 11) : Ordinary s (bitBranch s b x y d) :=
  .next ((Keeps.setCc _ _).trans (.branchIf _ _ (cobrTarget_aligned d)))

theorem testOn_ordinary (m : BitVec 3) (r : Reg) : Ordinary s (testOn s m r) :=
  .next ((Keeps.setReg _ _ _).trans (.advance_four _))

theorem faultOn_ordinary (m : BitVec 3) : Ordinary s (faultOn s m) := by
  unfold faultOn
  split
  · exact .faultAfter _ (.advance_four s)
  · exact .next (.advance_four s)

theorem bal_ordinary (d : BitVec 22) : Ordinary s (execBal d s) := by
  have h := (Keeps.setReg s linkRegister (s.ip + 4#32)).trans (.event _ evCall)
  exact .next ⟨fun i => ⟨(h.inv i).mem, ctrlTarget_aligned d i.ip, (h.inv i).cached, (h.inv i).tctl⟩, h.pctl⟩

theorem balx_ordinary (r : Reg) (m : MemOp) : Ordinary s (execBalx r m s) :=
  .next (((Keeps.setReg _ _ _).trans (.event _ _)).trans (.goto _ _))

theorem loadOne_ordinary {n : Nat} (r : Reg) (m : MemOp) (read : State → Word → Eff (BitVec n))
    (extend : BitVec n → Word) : Ordinary s (loadOne s r m read extend) := by
  refine .commit fun t ht => ?_
  obtain ⟨v, -, rfl⟩ := Eff.map_eq_ok.1 ht
  exact (Keeps.setReg _ _ _).trans (.advance _ (memLength_aligned m))

theorem loadGroup_ordinary (r : Reg) (m : MemOp) (n : Nat) : Ordinary s (loadGroup s r m n) := by
  refine .commit fun t ht => ?_
  obtain ⟨v, -, rfl⟩ := Eff.map_eq_ok.1 ht
  exact (Keeps.setRegs _ _ _).trans (.advance _ (memLength_aligned m))

theorem storeLow_keeps (r : Reg) (m : MemOp) (n : Nat) : Keeps s (storeLow s r m n) :=
  (Keeps.memStep (State.writeBytes_memStep _ _ _)).trans (.advance _ (memLength_aligned m))

theorem storeGroup_ordinary (r : Reg) (m : MemOp) (n : Nat) : Ordinary s (storeGroup s r m n) := by
  refine .commit fun t ht => ?_
  cases aligned_eq_ok ht
  exact (Keeps.memStep (State.writeWords_memStep _ _ _)).trans (.advance _ (memLength_aligned m))

/-- `stib` and `stis`: a store that may overflow. -/
theorem storeInteger_ordinary (b : Bool) (r : Reg) (m : MemOp) (n : Nat) :
    Ordinary s (if b then .next (storeLow s r m n) else integerOverflow s.ip (storeLow s r m n)) := by
  split
  · exact .next (storeLow_keeps s r m n)
  · exact .integerOverflow (storeLow_keeps s r m n)

theorem moveGroup_ordinary (x : Src) (d : Dst) (n : Nat) : Ordinary s (moveGroup s x d n) := by
  refine .commit fun t ht => ?_
  obtain ⟨ws, -, h⟩ := Eff.bind_eq_ok.1 ht
  obtain ⟨u, hu, rfl⟩ := Eff.map_eq_ok.1 h
  exact (dstWriteWords_keeps hu).trans (.advance_four _)

theorem scanResult_ordinary (d : Dst) (w : Word) : Ordinary s (scanResult s d w) := by
  unfold scanResult
  split <;> exact resultCc_ordinary _ _ _ _

theorem flushreg_ordinary : Ordinary s (execFlushreg s) := by
  have h := State.flushBeyond_memStep s.cached 0 s
  exact .next ⟨fun i => ⟨h.wf i.mem, aligned_add (h.ip.symm ▸ i.ip) rfl, Nat.zero_le _, h.tctl.symm ▸ i.tctl⟩, h.pctl⟩

theorem markEvent_ordinary : Ordinary s (markEvent s) :=
  .raiseTrace _ (.advance_four s) (.inr rfl)

theorem mark_ordinary : Ordinary s (execMark s) := by
  unfold execMark
  split
  · exact markEvent_ordinary s
  · exact .next (.advance_four s)

theorem fmark_ordinary : Ordinary s (execFmark s) := by
  unfold execFmark
  split
  · exact markEvent_ordinary s
  · exact .next (.advance_four s)

theorem modac_ordinary (x y : Src) (d : Dst) : Ordinary s (execModac x y d s) := by
  refine .commit fun t ht => ?_
  obtain ⟨u, hu, rfl⟩ := Eff.map_eq_ok.1 ht
  exact ((dstWrite_keeps hu).trans (.setAc _ _)).trans (.advance_four _)

/-- The bits `modtc` can write are not reserved, but for bits 0 and 16 (R364; log 52). -/
theorem mergeMask_reserved {mask new old : Word} (h : old &&& 0xFF00FF00#32 = 0#32) :
    mergeMask (mask &&& traceControlMask) new old &&& 0xFF00FF00#32 = 0#32 := by
  apply BitVec.eq_of_getLsbD_eq
  intro i hi
  have h1 := congrArg (fun w => w.getLsbD i) h
  have disjoint : ∀ k < 32, (traceControlMask.getLsbD k && (0xFF00FF00#32).getLsbD k) = false := by decide
  have h2 := disjoint i hi
  simp only [mergeMask, BitVec.getLsbD_and, BitVec.getLsbD_or, BitVec.getLsbD_zero, BitVec.getLsbD_not] at h1 h2 ⊢
  grind

theorem modtc_ordinary (x y : Src) (d : Dst) : Ordinary s (execModtc x y d s) := by
  refine .commit fun t ht => ?_
  obtain ⟨u, hu, rfl⟩ := Eff.map_eq_ok.1 ht
  have h := (dstWrite_keeps hu).trans (.advance_four u)
  exact ⟨fun i => ⟨(h.inv i).mem, (h.inv i).ip, (h.inv i).cached, mergeMask_reserved i.tctl⟩, h.pctl⟩

theorem atomicUpdate_ordinary (x : Src) (d : Dst) (f : Word → Word) : Ordinary s (atomicUpdate s x d f) := by
  refine .commit fun t ht => ?_
  obtain ⟨w, -, h⟩ := Eff.bind_eq_ok.1 ht
  obtain ⟨u, hu, rfl⟩ := Eff.map_eq_ok.1 h
  exact ((Keeps.memStep (State.writeWord_memStep _ _ _)).trans (dstWrite_keeps hu)).trans (.advance_four _)

theorem synld_ordinary (x : Src) (d : Dst) : Ordinary s (execSynld x d s) := by
  unfold execSynld
  dsimp only
  split
  · exact resultCc_ordinary _ _ _ _
  · split <;> exact resultCc_ordinary _ _ _ _

/-- A string write keeps what its stores keep. -/
theorem stringWrite_ordinary {t : State} (a : Word) (n : Nat) (h : s.MemStep t) : Ordinary s (stringWrite s a n t) := by
  refine .commit fun u hu => ?_
  split at hu <;> cases hu
  exact (Keeps.memStep h).trans (.advance_four _)

theorem movqstr_ordinary (x y z : Src) : Ordinary s (execMovqstr x y z s) := by
  refine stringWrite_ordinary s _ _ ?_
  split
  · exact State.freeBytes_memStep _ _ _
  · exact State.copyUp_memStep _ _ _ _

theorem cmpstr_ordinary (x y z : Src) : Ordinary s (execCmpstr x y z s) := by
  refine .commit fun t ht => ?_
  obtain ⟨c, -, rfl⟩ := Eff.map_eq_ok.1 ht
  exact (Keeps.setCc _ _).trans (.advance_four _)

/-! ### The shapes of floating-point instructions -/

theorem fpTarget_write_keeps (target : FpTarget) (f : FpFormat) (x : Ext) : Keeps s (target.write f x s) := by
  cases target with
  | regs r => exact .setRegs _ _ _
  | fp k => exact .setFps _ _
  | stray =>
    simp only [FpTarget.write]
    split
    · exact .setFps _ _
    · exact .setReg _ _ _

theorem fpFinish_ordinary (x : FpExceptions) {k : State → Res}
    (h : ∀ ac : ArithControls, Ordinary s (k { s with ac := ac })) : Ordinary s (fpFinish s x k) := by
  unfold fpFinish
  dsimp only
  split
  · exact .fault _ (.setAc s _)
  split
  · exact .fault _ (.setAc s _)
  split
  · exact .fault _ (.setAc s _)
  split
  · exact .fault _ (.setAc s _)
  split
  · exact .fault _ (.setAc s _)
  · exact h _

theorem fpDeliver_ordinary (f : FpFormat) (target : FpTarget) (r : FpResult) : Ordinary s (fpDeliver s f target r) := by
  unfold fpDeliver
  exact fpFinish_ordinary s _ fun ac =>
    .next (((Keeps.setAc s ac).trans (fpTarget_write_keeps _ _ _ _)).trans (.advance_four _))

theorem fpUnary_ordinary (f : FpFormat) (op : Nat → BitVec 2 → FpNum → FpResult) (x : FSrc) (d : FDst) :
    Ordinary s (fpUnary s f op x d) := .commitThen fun _ _ => fpDeliver_ordinary s _ _ _

theorem fpBinary_ordinary (f : FpFormat) (op : Nat → BitVec 2 → FpNum → FpNum → FpResult) (x y : FSrc) (d : FDst) :
    Ordinary s (fpBinary s f op x y d) := .commitThen fun _ _ => fpDeliver_ordinary s _ _ _

theorem fpRemainder_ordinary (f : FpFormat) (x y : FSrc) (d : FDst) : Ordinary s (fpRemainder s f x y d) :=
  .commitThen fun _ _ => fpFinish_ordinary s _ fun ac =>
    .next ((((Keeps.setAc s ac).trans (fpTarget_write_keeps _ _ _ _)).trans (.setStatus _ _)).trans (.advance_four _))

theorem fpScaling_ordinary (f : FpFormat) (n : Int) (y : FSrc) (d : FDst) : Ordinary s (fpScaling s f n y d) :=
  .commitThen fun _ _ => fpDeliver_ordinary s _ _ _

theorem transUnary_ordinary (f : FpFormat) (g : FpTarget → FpNum → FpResult) (x : FSrc) (d : FDst) :
    Ordinary s (transUnary s f g x d) := .commitThen fun _ _ => fpDeliver_ordinary s _ _ _

theorem transBinary_ordinary (f : FpFormat) (g : FpTarget → FpNum → FpNum → FpResult) (x y : FSrc) (d : FDst) :
    Ordinary s (transBinary s f g x y d) := .commitThen fun _ _ => fpDeliver_ordinary s _ _ _

theorem fpCompare_ordinary (f : FpFormat) (b : Bool) (x y : FSrc) : Ordinary s (fpCompare s f b x y) :=
  .commitThen fun _ _ => fpFinish_ordinary s _ fun ac =>
    .next (((Keeps.setAc s ac).trans (.setCc _ _)).trans (.advance_four _))

theorem fpClassify_ordinary (f : FpFormat) (x : FSrc) : Ordinary s (fpClassify s f x) :=
  .commitThen fun _ _ => .next ((Keeps.setStatus _ _).trans (.advance_four _))

theorem fpMove_ordinary (f : FpFormat) (x : FSrc) (d : FDst) : Ordinary s (fpMove s f x d) := by
  refine .commitThen fun p _ => ?_
  split
  · exact fpDeliver_ordinary s _ _ _
  · exact .next ((fpTarget_write_keeps _ _ _ _).trans (.advance_four _))

theorem fpCopySign_ordinary (b : Bool) (x y : FSrc) (d : FDst) : Ordinary s (fpCopySign s b x y d) :=
  .commitThen fun _ _ => .next ((fpTarget_write_keeps _ _ _ _).trans (.advance_four _))

theorem fpFromInt_ordinary (n : Eff Int) (d : FDst) : Ordinary s (fpFromInt s n d) :=
  .commitThen fun _ _ => fpDeliver_ordinary s _ _ _

theorem fpToInt_ordinary (rc : BitVec 2) (n : Nat) (x : FSrc) (d : Dst) : Ordinary s (fpToInt s rc n x d) := by
  refine .commitThen fun y _ => .commitThen fun t ht => ?_
  split
  · exact .integerOverflow ((dstWriteWords_keeps ht).trans (.advance_four t))
  · refine fpFinish_ordinary s _ fun ac => ?_
    have hs := Keeps.setAc s ac
    generalize he : dstWriteWords d _ _ = e
    cases e with
    | ok u => exact .next ((hs.trans (dstWriteWords_keeps he)).trans (.advance_four _))
    | raise e => exact .fault e hs
    | refuse r => exact .refused r

end Shapes

end Sys2Proof.Machine
end

section
/-! SUPPORT. Every instruction but six keeps the process controls by its own effect; what those six do to them. -/

namespace Sys2Proof.Machine

theorem resumprcs_ordinary (s : State) (x : Src) : Ordinary s (execResumprcs x s) := by
  unfold execResumprcs
  split
  · exact .refused _
  · exact .fault _ (.refl s)

/-- The instructions that may change the process controls by their own effect: `ret`, `calls`, `modpc`, and the synchronous
moves, which may send a message (R343, R344, R363, R540). -/
def changesControls : Instr → Bool
  | .ret | .calls _ | .modpc _ _ _ | .synmov _ _ | .synmovl _ _ | .synmovq _ _ => true
  | _ => false

/-- Every other instruction is ordinary. -/
theorem exec_ordinary (s : State) (i : Instr) (h : changesControls i = false) : Ordinary s (exec i s) := by
  cases i with
  | b d => exact .next (.branch s (ctrlTarget_aligned d))
  | bx m => exact .next (.branch s fun _ => aligned_mask _)
  | call x | callx x => exact .next (.doCall s _ _ _ _)
  | bal x => exact bal_ordinary s x
  | balx x y => exact balx_ordinary s x y
  | bno x | bg x | be x | bge x | bl x | bne x | ble x | bo x => exact branchOn_ordinary s _ x
  | faultno | faultg | faulte | faultge | faultl | faultne | faultle | faulto => exact faultOn_ordinary s _
  | testno x | testg x | teste x | testge x | testl x | testne x | testle x | testo x => exact testOn_ordinary s _ x
  | bbc x y z | bbs x y z => exact bitBranch_ordinary s _ x y z
  | cmpobg x y z | cmpobe x y z | cmpobge x y z | cmpobl x y z | cmpobne x y z | cmpoble x y z | cmpibno x y z
  | cmpibg x y z | cmpibe x y z | cmpibge x y z | cmpibl x y z | cmpibne x y z | cmpible x y z | cmpibo x y z =>
    exact compareBranch_ordinary s _ _ x y z
  | ld x y | ldob x y | ldos x y | ldib x y | ldis x y => exact loadOne_ordinary s x y _ _
  | ldl x y | ldt x y | ldq x y => exact loadGroup_ordinary s x y _
  | st x y | stob x y | stos x y => exact .next (storeLow_keeps s x y _)
  | stib x y | stis x y => exact storeInteger_ordinary s _ x y _
  | stl x y | stt x y | stq x y => exact storeGroup_ordinary s x y _
  | lda x y => exact .next ((Keeps.setReg _ _ _).trans (.advance _ (memLength_aligned y)))
  | mov x y | not x y => exact result_ordinary s y _
  | movl x y | movt x y | movq x y => exact moveGroup_ordinary s x y _
  | addo x y z | subo x y z | mulo x y z | shlo x y z | shro x y z | shri x y z | shrdi x y z | rotate x y z
  | and x y z | andnot x y z | notand x y z | nand x y z | or x y z | nor x y z | ornot x y z | notor x y z
  | xor x y z | xnor x y z | setbit x y z | clrbit x y z | notbit x y z | alterbit x y z | extract x y z
  | modify x y z =>
    exact result_ordinary s z _
  | addi x y z | subi x y z | muli x y z | shli x y z => exact resultOverflow_ordinary s z _ _
  | addc x y z | subc x y z | cmpinco x y z | cmpinci x y z | cmpdeco x y z | cmpdeci x y z | daddc x y z
  | dsubc x y z =>
    exact resultCc_ordinary s z _ _
  | divo x y z | remo x y z | modi x y z => exact .unlessZero _ (result_ordinary s z _)
  | divi x y z | remi x y z => exact .unlessZero _ (resultOverflow_ordinary s z _ _)
  | emul x y z => exact resultWords_ordinary s z _
  | ediv x y z => exact ediv_ordinary s x y z
  | ldtime x => exact resultWords_ordinary s x _
  | cmpo x y | cmpi x y | concmpo x y | concmpi x y | scanbyte x y | chkbit x y => exact resultOnlyCc_ordinary s _
  | scanbit x y | spanbit x y => exact scanResult_ordinary s y _
  | dmovt x y => exact resultCc_ordinary s y _ _
  | synld x y => exact synld_ordinary s x y
  | atadd x y z | atmod x y z => exact atomicUpdate_ordinary s x z _
  | modac x y z => exact modac_ordinary s x y z
  | modtc x y z => exact modtc_ordinary s x y z
  | mark => exact mark_ordinary s
  | fmark => exact fmark_ordinary s
  | syncf => exact .next (.advance_four s)
  | flushreg => exact flushreg_ordinary s
  | movstr x y z => exact stringWrite_ordinary s _ _ (State.moveString_memStep _ _ _ _)
  | movqstr x y z => exact movqstr_ordinary s x y z
  | cmpstr x y z => exact cmpstr_ordinary s x y z
  | fill x y z => exact .next ((Keeps.memStep (State.fillBytes_memStep _ _ _ _ _)).trans (.advance_four _))
  | send x y z | sendserv x | receive x y | condrec x y | signal x | wait x | condwait x | schedprcs x
  | saveprcs | ldphy x y | inspacc x y =>
    exact .refused _
  | resumprcs x => exact resumprcs_ordinary s x
  | sqrtr x y | sqrtrl x y | roundr x y | roundrl x y | logbnr x y | logbnrl x y => exact fpUnary_ordinary s _ _ x y
  | addr x y z | addrl x y z | subr x y z | subrl x y z | mulr x y z | mulrl x y z | divr x y z | divrl x y z =>
    exact fpBinary_ordinary s _ _ x y z
  | remr x y z | remrl x y z => exact fpRemainder_ordinary s _ x y z
  | scaler x y z | scalerl x y z => exact fpScaling_ordinary s _ _ y z
  | expr x y | exprl x y | sinr x y | sinrl x y | cosr x y | cosrl x y | tanr x y | tanrl x y =>
    exact transUnary_ordinary s _ _ x y
  | logr x y z | logrl x y z | logepr x y z | logeprl x y z | atanr x y z | atanrl x y z =>
    exact transBinary_ordinary s _ _ x y z
  | cmpr x y | cmprl x y | cmpor x y | cmporl x y => exact fpCompare_ordinary s _ _ x y
  | classr x | classrl x => exact fpClassify_ordinary s _ x
  | movr x y | movrl x y | movre x y => exact fpMove_ordinary s _ x y
  | cpysre x y z | cpyrsre x y z => exact fpCopySign_ordinary s _ x y z
  | cvtir x y | cvtilr x y => exact fpFromInt_ordinary s _ y
  | cvtri x y | cvtril x y | cvtzri x y | cvtzril x y => exact fpToInt_ordinary s _ _ x y
  | ret | calls x | modpc x y z | synmov x y | synmovl x y | synmovq x y => cases h

end Sys2Proof.Machine
end

section
/-! SUPPORT. Every step keeps the invariant of the machine. -/

namespace Sys2Proof.Machine

/-! ### The invariant through the instructions that change the process controls -/

section Invariant

variable {s t : State}

theorem State.Inv.event (h : s.Inv) (e : BitVec 8) : (s.event e).Inv := h.setTraced _

theorem State.Inv.setCc (h : s.Inv) (c : BitVec 3) : (s.setCc c).Inv := (Keeps.setCc s c).inv h

theorem State.Inv.handlerReturn (h : s.Inv) (e : s.handlerReturn = .ok t) : t.Inv := by
  unfold State.handlerReturn at e
  obtain ⟨saved, -, e⟩ := Eff.bind_eq_ok.1 e
  obtain ⟨u, hu, rfl⟩ := Eff.map_eq_ok.1 e
  have i := h.localReturn hu
  exact ⟨i.mem, i.ip, i.cached, i.tctl⟩

theorem State.Inv.supervisorReturn (h : s.Inv) {b : Bool} (e : s.supervisorReturn b = .ok t) : t.Inv := by
  unfold State.supervisorReturn at e
  obtain ⟨u, hu, rfl⟩ := Eff.map_eq_ok.1 e
  have i := h.localReturn hu
  split
  · exact ((i.setTe b).setSupervisor false).event _
  · exact i

theorem State.Inv.ret (h : s.Inv) (e : execRet s = .next t) : t.Inv := by
  have hs : (s.event evReturn).Inv := h.event _
  unfold execRet at e
  dsimp only at e
  split at e
  · exact h.raiseTrace e
  split at e
  · exact h.commit (fun _ => hs.localReturn) e
  · exact h.commit (fun _ => hs.handlerReturn) e
  · exact h.commit (fun _ => hs.supervisorReturn) e
  · exact h.commit (fun _ => hs.supervisorReturn) e
  · refine h.commitThen (fun u t hu ht => ?_) e
    exact State.Inv.thenCheckPending ((hs.handlerReturn hu).control u.pctl _) ht
  · cases e

theorem State.Inv.callSystem (h : s.Inv) (p : ProcedureCall) : (s.callSystem p).Inv := by
  unfold State.callSystem
  split
  · exact (Keeps.doCall s _ _ _ _).inv h
  · exact ((((Keeps.doCall s _ _ _ _).inv h).setSupervisor true).setTe _).event _

theorem State.Inv.calls (h : s.Inv) {x : Src} (e : execCalls x s = .next t) : t.Inv := by
  refine h.commit (fun u hu => ?_) e
  obtain ⟨p, -, rfl⟩ := Eff.map_eq_ok.1 hu
  exact h.callSystem p

theorem State.Inv.modpc (h : s.Inv) {x y : Src} {d : Dst} (e : execModpc x y d s = .next t) : t.Inv := by
  unfold execModpc at e
  dsimp only at e
  split at e
  · exact (result_ordinary s d _).inv h e
  split at e
  · exact h.takeFault e
  refine h.commitThen (fun u t hu ht => ?_) e
  have i := ((dstWrite_keeps hu).inv h).control (mergeMask (srcVal s y) (dstVal s d) s.pctl)
    (relabel s.pctl (mergeMask (srcVal s y) (dstVal s d) s.pctl) s.proc)
  have j := i.advance (n := 4#32) rfl
  split at ht
  · exact j.thenCheckPending ht
  · cases ht; exact j

/-- Loading the pointers of a PRCB leaves all that the invariant speaks of, the process controls and the interrupt state. -/
theorem State.loadPrcb_eq_ok {a b : Word} (e : s.loadPrcb a b = .ok t) :
    t.mem = s.mem ∧ t.ip = s.ip ∧ t.cached = s.cached ∧ t.tctl = s.tctl ∧ t.pctl = s.pctl := by
  unfold State.loadPrcb at e
  obtain ⟨_, -, e⟩ := Eff.bind_eq_ok.1 e
  obtain ⟨_, -, e⟩ := Eff.bind_eq_ok.1 e
  obtain ⟨_, -, e⟩ := Eff.bind_eq_ok.1 e
  obtain ⟨_, -, e⟩ := Eff.bind_eq_ok.1 e
  obtain ⟨_, -, e⟩ := Eff.bind_eq_ok.1 e
  obtain ⟨_, -, e⟩ := Eff.bind_eq_ok.1 e
  obtain ⟨_, -, rfl⟩ := Eff.map_eq_ok.1 e
  exact ⟨rfl, rfl, rfl, rfl, rfl⟩

theorem State.Inv.loadPrcb (h : s.Inv) {a b : Word} (e : s.loadPrcb a b = .ok t) : t.Inv := by
  obtain ⟨hm, hi, hc, ht, -⟩ := State.loadPrcb_eq_ok e
  exact ⟨hm ▸ h.mem, hi ▸ h.ip, hc ▸ h.cached, ht ▸ h.tctl⟩

theorem State.Inv.startAt (h : s.Inv) (a : Word) : (s.startAt a).Inv :=
  ⟨h.mem, aligned_mask a, Nat.zero_le _, h.tctl⟩

theorem State.Inv.followImage (h : s.Inv) (e : s.followImage = .ok t) : t.Inv := by
  unfold State.followImage at e
  obtain ⟨_, -, e⟩ := Eff.bind_eq_ok.1 e
  obtain ⟨_, -, e⟩ := Eff.bind_eq_ok.1 e
  obtain ⟨_, -, e⟩ := Eff.bind_eq_ok.1 e
  obtain ⟨u, hu, rfl⟩ := Eff.map_eq_ok.1 e
  exact (h.loadPrcb hu).startAt _

theorem State.Inv.receiveIac (h : s.Inv) {m : IacMessage} (e : s.receiveIac m = .ok t) : t.Inv := by
  unfold State.receiveIac at e
  split at e
  · split at e
    · cases e
    · exact h.interruptArrives e
  · exact h.checkPending e
  · cases e
    exact (h.memStep (State.writeWord_memStep _ _ _)).memStep (State.writeWord_memStep _ _ _)
  · obtain ⟨u, hu, rfl⟩ := Eff.map_eq_ok.1 e
    have i := h.loadPrcb hu
    exact ⟨i.mem, i.ip, i.cached, i.tctl⟩
  · cases e; exact ⟨h.mem, h.ip, h.cached, h.tctl⟩
  · cases e
    unfold State.setBreakpoint
    split <;> exact ⟨h.mem, h.ip, h.cached, h.tctl⟩
  · cases e; exact h.control s.pctl .stopped
  · exact h.followImage e
  · obtain ⟨u, hu, rfl⟩ := Eff.map_eq_ok.1 e
    have i := (h.loadPrcb hu).startAt m.field5
    exact ⟨i.mem, i.ip, i.cached, i.tctl⟩
  · cases e

theorem synWrite_keeps (s : State) (d : Word) (ws : List Word) : Keeps s (synWrite d ws s) := by
  unfold synWrite
  split
  · exact (Keeps.memStep (State.writeWords_memStep _ _ _)).trans (.setCc _ _)
  · exact (Keeps.memStep (State.writeFreeWords_memStep _ _ _ _)).trans (.setCc _ _)

/-- How a synchronous move ends: as an ordinary instruction, or with a message received by the processor itself. -/
theorem synchronousMove_cases (s : State) (n : Nat) (d : Word) (y : Src) :
    Ordinary s (synchronousMove s n d y) ∨
      ∃ m, synchronousMove s n d y = s.commit (((s.setCc (foundCc true)).advance 4#32).receiveIac m) := by
  unfold synchronousMove
  cases s.loadWords (srcVal s y) n with
  | raise e => exact .inl (.fault e (.refl s))
  | refuse r => exact .inl (.refused r)
  | ok ws =>
    rw [State.commitThen_ok]
    split
    · exact .inr ⟨_, rfl⟩
    split
    · exact .inl (.next (((Keeps.setCc _ _).trans (.setIcr _ _)).trans (.advance_four _)))
    · exact .inl (.next ((synWrite_keeps _ _ _).trans (.advance_four _)))

theorem State.Inv.synchronousMove (h : s.Inv) {n : Nat} {d : Word} {y : Src}
    (e : Machine.synchronousMove s n d y = .next t) : t.Inv := by
  rcases synchronousMove_cases s n d y with ho | ⟨m, hm⟩
  · exact ho.inv h e
  · rw [hm] at e
    exact h.commit (fun u hu => ((h.setCc _).advance rfl).receiveIac hu) e

/-- Every instruction keeps the invariant. -/
theorem State.Inv.exec (h : s.Inv) {i : Instr} (e : Machine.exec i s = .next t) : t.Inv := by
  cases hi : changesControls i with
  | false => exact (exec_ordinary s i hi).inv h e
  | true =>
    cases i with
    | ret => exact h.ret e
    | calls x => exact h.calls e
    | modpc x y z => exact h.modpc (x := x) e
    | synmov x y | synmovl x y | synmovq x y => exact h.synchronousMove e
    | _ => cases hi

/-! ### The invariant through a step -/

theorem State.Inv.setSerial (h : s.Inv) (n : Nat) : ({ s with serial := n } : State).Inv :=
  ⟨h.mem, h.ip, h.cached, h.tctl⟩

theorem State.Inv.withEnv (h : s.Inv) (l : List EnvEvent) : (s.withEnv l).Inv := ⟨h.mem, h.ip, h.cached, h.tctl⟩

theorem State.Inv.finish {r : Res} (h : ∀ t, r = .next t → t.Inv) (e : s.finish r = .next t) : t.Inv := by
  cases r with
  | fault r => cases e
  | refused r => cases e
  | next u =>
    simp only [State.finish] at e
    cases hv : Machine.traceFinish (traceModes s.tctl) s.ip u with
    | fault r => rw [hv] at e; cases e
    | refused r => rw [hv] at e; cases e
    | next v =>
      rw [hv] at e
      cases e
      exact ((h u rfl).traceFinish hv).setSerial _

theorem State.Inv.runInstruction (h : s.Inv) (e : Machine.runInstruction s = .next t) : t.Inv := by
  have hb : s.begin.Inv := h.setTraced _
  unfold Machine.runInstruction at e
  split at e
  · exact State.Inv.finish (fun u hu => hb.exec hu) e
  · exact State.Inv.finish (fun u hu => hb.takeFault hu) e
  · cases e

theorem State.Inv.takeInterrupt (h : s.Inv) {v : BitVec 8} (e : s.takeInterrupt v = .next t) : t.Inv := by
  unfold State.takeInterrupt at e
  split at e
  case h_1 u hu =>
    cases e
    exact ((h.commit (fun _ => h.interruptArrives) hu).setTraced 0).setSerial _
  case h_2 hu => exact absurd e (hu t)

theorem State.Inv.externalWrite (h : s.Inv) (a : Word) (b : Byte) : (s.externalWrite a b).Inv :=
  (h.memStep (State.writeByte_memStep a b s)).setSerial _

theorem State.Inv.stepExecuting (h : s.Inv) (e : Machine.stepExecuting s = .next t) : t.Inv := by
  unfold Machine.stepExecuting at e
  split at e
  · exact h.runInstruction e
  · exact (h.withEnv _).runInstruction e
  · exact (h.withEnv _).takeInterrupt e
  · cases e; exact (h.withEnv _).externalWrite _ _

theorem State.Inv.idleStep (h : s.Inv) (e : s.idleStep = .next t) : t.Inv := by
  unfold State.idleStep at e
  split at e
  · cases e; exact h.setSerial _
  · cases e; exact (h.withEnv _).setSerial _
  · exact (h.withEnv _).takeInterrupt e
  · cases e; exact (h.withEnv _).externalWrite _ _

end Invariant

/-- Settles O8: an instruction, a fault, an interrupt and a write from outside each keep the invariant. -/
theorem stepKeepsInvariant : Obligations.StepKeepsInvariant := by
  unfold Obligations.StepKeepsInvariant
  intro s t h e
  unfold step at e
  split at e
  · cases e
  split at e
  · cases e
  · exact h.idleStep e
  · exact h.stepExecuting e
  · exact h.stepExecuting e
  · exact h.stepExecuting e

/-- Settles O7: the reset state's memory is empty, and its ip, TC and cached sets are 0. -/
theorem resetHasInvariant : Obligations.ResetHasInvariant := by
  unfold Obligations.ResetHasInvariant
  exact ⟨Memory.empty_wf, rfl, Nat.zero_le _, rfl⟩

end Sys2Proof.Machine
end

section
/-! SUPPORT. In user mode the process controls change only by faults, system calls, messages and interrupts (R36). -/

namespace Sys2Proof.Machine

/-- The state `t` is in an interrupt handler entered with the process controls `pc` (R533; log 6). -/
structure InHandler (pc : Word) (t : State) : Prop where
  supervisor : t.supervisor = true
  te : t.te = false
  interrupted : t.pctl.extractLsb' 13 2 = 1#2
  others : ∀ k, k ∉ [0, 1, 8, 13, 14, 16, 17, 18, 19, 20] → t.pctl.getLsbD k = pc.getLsbD k

theorem interruptControls_supervisor (pc : Word) (p : Nat) : (interruptControls pc p).getLsbD 1 = true := by
  simp only [interruptControls, BitVec.getLsbD_append]
  simp

theorem interruptControls_te (pc : Word) (p : Nat) : (interruptControls pc p).getLsbD 0 = false := by
  simp only [interruptControls, BitVec.getLsbD_append]
  simp

theorem interruptControls_state (pc : Word) (p : Nat) : (interruptControls pc p).extractLsb' 13 2 = 1#2 := by
  apply BitVec.eq_of_getLsbD_eq
  intro i hi
  simp only [interruptControls, BitVec.getLsbD_extractLsb', BitVec.getLsbD_append, hi, decide_true, Bool.true_and]
  grind

theorem interruptControls_priority (pc : Word) (p : Nat) :
    (interruptControls pc p).extractLsb' 16 5 = BitVec.ofNat 5 p := by
  apply BitVec.eq_of_getLsbD_eq
  intro i hi
  simp only [interruptControls, BitVec.getLsbD_extractLsb', BitVec.getLsbD_append, hi, decide_true, Bool.true_and]
  grind

theorem interruptControls_others (pc : Word) (p k : Nat) (h : k ∉ [0, 1, 8, 13, 14, 16, 17, 18, 19, 20]) :
    (interruptControls pc p).getLsbD k = pc.getLsbD k := by
  by_cases hk : k < 32
  · simp only [interruptControls, BitVec.getLsbD_append, BitVec.getLsbD_extractLsb']
    simp only [List.mem_cons, List.not_mem_nil, or_false, not_or] at h
    grind
  · rw [BitVec.getLsbD_of_ge _ _ (by omega), BitVec.getLsbD_of_ge _ _ (by omega)]


section Events

variable {s t : State}

theorem State.interruptEntry_inHandler {v : BitVec 8} {a : Word} (e : s.interruptEntry v a = .ok t) :
    InHandler s.pctl t := by
  unfold State.interruptEntry at e
  obtain ⟨w, -, rfl⟩ := Eff.map_eq_ok.1 e
  exact ⟨interruptControls_supervisor _ _, interruptControls_te _ _, interruptControls_state _ _,
    interruptControls_others _ _⟩

theorem State.interruptArrives_pctl {v : BitVec 8} (e : s.interruptArrives v = .ok t) :
    t.pctl = s.pctl ∨ InHandler s.pctl t := by
  unfold State.interruptArrives at e
  split at e
  · cases e; exact .inl rfl
  split at e
  · exact .inr (State.interruptEntry_inHandler e)
  · unfold State.postInterrupt at e
    obtain ⟨w, -, e⟩ := Eff.bind_eq_ok.1 e
    obtain ⟨p, -, rfl⟩ := Eff.map_eq_ok.1 e
    exact .inl ((State.writeWord_memStep _ _ _).trans (State.writeWord_memStep _ _ _)).pctl

/-- Clearing a pending interrupt only stores; then its handler is entered. -/
theorem State.checkPending_cases (e : s.checkPending = .ok t) :
    t = s ∨ ∃ u v a, s.MemStep u ∧ u.interruptEntry v a = .ok t := by
  unfold State.checkPending at e
  obtain ⟨w, -, e⟩ := Eff.bind_eq_ok.1 e
  split at e
  · cases e; exact .inl rfl
  split at e
  · obtain ⟨p, -, e⟩ := Eff.bind_eq_ok.1 e
    split at e
    · cases e; exact .inl rfl
    · refine .inr ⟨_, _, _, ?_, e⟩
      split
      · exact (State.writeWord_memStep _ _ _).trans (State.writeWord_memStep _ _ _)
      · exact State.writeWord_memStep _ _ _
  · cases e; exact .inl rfl

theorem State.checkPending_pctl (e : s.checkPending = .ok t) : t.pctl = s.pctl ∨ InHandler s.pctl t := by
  rcases State.checkPending_cases e with rfl | ⟨u, v, a, hu, e⟩
  · exact .inl rfl
  · exact .inr (hu.pctl ▸ State.interruptEntry_inHandler e)

theorem State.followImage_pctl (e : s.followImage = .ok t) : t.pctl = resetProcessControls := by
  unfold State.followImage at e
  obtain ⟨_, -, e⟩ := Eff.bind_eq_ok.1 e
  obtain ⟨_, -, e⟩ := Eff.bind_eq_ok.1 e
  obtain ⟨_, -, e⟩ := Eff.bind_eq_ok.1 e
  obtain ⟨u, -, rfl⟩ := Eff.map_eq_ok.1 e
  rfl

theorem State.receiveIac_pctl {m : IacMessage} (e : s.receiveIac m = .ok t) :
    t.pctl = s.pctl ∨ InHandler s.pctl t ∨ t.pctl = resetProcessControls := by
  unfold State.receiveIac at e
  split at e
  · split at e
    · cases e
    · exact (State.interruptArrives_pctl e).imp_right .inl
  · exact (State.checkPending_pctl e).imp_right .inl
  · cases e; exact .inl ((State.writeWord_memStep _ _ _).trans (State.writeWord_memStep _ _ _)).pctl
  · obtain ⟨u, hu, rfl⟩ := Eff.map_eq_ok.1 e
    exact .inl (State.loadPrcb_eq_ok hu).2.2.2.2
  · cases e; exact .inl rfl
  · cases e
    unfold State.setBreakpoint
    split <;> exact .inl rfl
  · cases e; exact .inl rfl
  · exact .inr (.inr (State.followImage_pctl e))
  · obtain ⟨u, hu, rfl⟩ := Eff.map_eq_ok.1 e
    exact .inr (.inr rfl)
  · cases e

theorem State.localReturn_pctl (e : s.localReturn = .ok t) : t.pctl = s.pctl := by
  obtain ⟨regs, cached, -, rfl⟩ := State.localReturn_ok e
  rfl

/-- In user mode a return from a handler restores AC only. -/
theorem State.handlerReturn_pctl (hs : s.supervisor = false) (e : s.handlerReturn = .ok t) : t.pctl = s.pctl := by
  unfold State.handlerReturn at e
  obtain ⟨saved, -, e⟩ := Eff.bind_eq_ok.1 e
  obtain ⟨u, hu, rfl⟩ := Eff.map_eq_ok.1 e
  simp [hs]

/-- In user mode a return from a supervisor call changes no process control. -/
theorem State.supervisorReturn_pctl (hs : s.supervisor = false) {b : Bool} (e : s.supervisorReturn b = .ok t) :
    t.pctl = s.pctl := by
  unfold State.supervisorReturn at e
  obtain ⟨u, hu, rfl⟩ := Eff.map_eq_ok.1 e
  simp [hs, State.localReturn_pctl hu]

end Events

/-! ### Single bits of a control word -/

theorem setBit_true (w : Word) (k : Nat) : setBit w k true = w ||| BitVec.twoPow 32 k := rfl
theorem setBit_false (w : Word) (k : Nat) : setBit w k false = w &&& ~~~BitVec.twoPow 32 k := rfl

/-- A bit is set or cleared, and no other changes. -/
theorem getLsbD_setBit (w : Word) (k i : Nat) (b : Bool) (hk : k < 32) :
    (setBit w k b).getLsbD i = if i = k then b else w.getLsbD i := by
  by_cases hi : i < 32
  · cases b with
    | true =>
      rw [setBit_true, BitVec.getLsbD_or, BitVec.getLsbD_twoPow]
      by_cases h : i = k
      · simp [h, hk]
      · simp [h, Ne.symm h]
    | false =>
      rw [setBit_false, BitVec.getLsbD_and, BitVec.getLsbD_not, BitVec.getLsbD_twoPow]
      by_cases h : i = k
      · simp [h, hk]
      · simp [h, Ne.symm h, hi]
  · rw [BitVec.getLsbD_of_ge _ _ (by omega), BitVec.getLsbD_of_ge _ _ (by omega), if_neg (by omega)]

/-! ### One lemma for each instruction that may change the process controls -/

section UserMode

/-- A fault is taken from a state whose PC is that of `s`, but for the trace-fault-pending flag; at the ip, or at the ip of
a `later` instruction. -/
def FaultTaken (s : State) (later : Prop) (t : State) : Prop :=
  ∃ (e : Exn) (f a : Word) (u : State), takeFault e f a u = .next t ∧
    (u.pctl = s.pctl ∨ u.pctl = s.pctl ||| BitVec.twoPow 32 10) ∧ (f = s.ip ∨ (later ∧ f = u.ip)) ∧ (a = f ∨ a = u.ip)

variable {s t : State}

theorem FaultTaken.own {later : Prop} {e : Exn} (h : takeFault e s.ip s.ip s = .next t) : FaultTaken s later t :=
  ⟨e, s.ip, s.ip, s, h, .inl rfl, .inl rfl, .inl rfl⟩

/-- An ordinary instruction changes the process controls by a fault only. -/
theorem Ordinary.user {later : Prop} {x : Res} (h : Ordinary s x) (e : x = .next t) :
    t.pctl = s.pctl ∨ FaultTaken s later t := by
  rcases h t e with k | ⟨x, a, u, k, -, hp, ha⟩
  · exact .inl k.pctl
  · exact .inr ⟨x, s.ip, a, u, k, hp, .inl rfl, ha⟩

/-- A committed effect that keeps the process controls. -/
theorem commit_user {later : Prop} {x : Eff State} (hx : ∀ u, x = .ok u → u.pctl = s.pctl) (e : s.commit x = .next t) :
    t.pctl = s.pctl ∨ FaultTaken s later t := by
  rcases State.commit_next e with hx' | ⟨x, -, e⟩
  · exact .inl (hx _ hx')
  · exact .inr (.own e)

/-- `ret` in user mode: the process controls stay, but for a fault, and an interrupt entered after the return. -/
theorem execRet_user (hs : s.supervisor = false) (e : execRet s = .next t) :
    t.pctl = s.pctl ∨ FaultTaken s True t ∨ InHandler s.pctl t := by
  unfold execRet at e
  dsimp only at e
  split at e
  · exact .inr (.inl ⟨_, s.ip, s.ip, _, e, .inr rfl, .inl rfl, .inl rfl⟩)
  split at e
  · exact (commit_user (s := s) (fun u hu => State.localReturn_pctl (s := s.event evReturn) hu) e).imp_right .inl
  · exact (commit_user (s := s) (fun u hu => State.handlerReturn_pctl (s := s.event evReturn) hs hu) e).imp_right .inl
  · exact (commit_user (s := s) (fun u hu => State.supervisorReturn_pctl (s := s.event evReturn) hs hu) e).imp_right .inl
  · exact (commit_user (s := s) (fun u hu => State.supervisorReturn_pctl (s := s.event evReturn) hs hu) e).imp_right .inl
  · rcases State.commitThen_next e with ⟨u, hu, e⟩ | ⟨x, -, e⟩
    · have hp : u.pctl = s.pctl := State.handlerReturn_pctl (s := s.event evReturn) hs hu
      unfold thenCheckPending at e
      split at e
      case h_1 v hv =>
        cases e
        rcases State.checkPending_pctl hv with h | h
        · exact .inl (h.trans hp)
        · exact .inr (.inr (hp ▸ h))
      case h_2 x hx => exact .inr (.inl ⟨x, _, _, _, e, .inl hp, .inr ⟨trivial, rfl⟩, .inl rfl⟩)
      case h_3 => cases e
    · exact .inr (.inl (.own e))
  · cases e

/-- A system call keeps the process controls, or switches to supervisor mode and changes no bit but te and em. -/
theorem State.callSystem_pctl (p : ProcedureCall) :
    (s.callSystem p).pctl = s.pctl ∨
      ((s.callSystem p).supervisor = true ∧ ∀ k, 2 ≤ k → (s.callSystem p).pctl.getLsbD k = s.pctl.getLsbD k) := by
  unfold State.callSystem
  split
  · exact .inl (Keeps.doCall s _ _ _ _).pctl
  case h_2 te hte =>
    have hp := (Keeps.doCall s p.target (roundUp64 p.stack)
      (2#32 ||| BitVec.setWidth 32 (BitVec.ofBool s.te)) 4#32).pctl
    refine .inr ⟨?_, fun k hk => ?_⟩
    · simp only [State.supervisor, State.setTe, State.setSupervisor, State.event]
      rw [getLsbD_setBit _ _ _ _ (by decide), getLsbD_setBit _ _ _ _ (by decide)]
      rfl
    · rw [← hp]
      simp only [State.setTe, State.setSupervisor, State.event]
      rw [getLsbD_setBit _ _ _ _ (by decide), getLsbD_setBit _ _ _ _ (by decide), if_neg (by omega), if_neg (by omega)]

theorem execCalls_user {x : Src} (e : execCalls x s = .next t) :
    (t.pctl = s.pctl ∨ FaultTaken s False t) ∨
      (t.supervisor = true ∧ ∀ k, 2 ≤ k → t.pctl.getLsbD k = s.pctl.getLsbD k) := by
  rcases State.commit_next e with hx | ⟨x, -, e⟩
  · obtain ⟨p, -, rfl⟩ := Eff.map_eq_ok.1 hx
    exact (State.callSystem_pctl p).imp_left .inl
  · exact .inl (.inr (.own e))

/-- `modpc` in user mode reads PC, or raises Type.Mismatch. -/
theorem execModpc_user {x y : Src} {d : Dst} (hs : s.supervisor = false) (e : execModpc x y d s = .next t) :
    t.pctl = s.pctl ∨ FaultTaken s False t := by
  unfold execModpc at e
  dsimp only at e
  split at e
  · exact (result_ordinary s d _).user e
  · exact .inr (.own e)

/-- A synchronous move is ordinary, or sends a message. -/
theorem synchronousMove_user {n : Nat} {d : Word} {y : Src} (e : synchronousMove s n d y = .next t) :
    (t.pctl = s.pctl ∨ FaultTaken s False t) ∨ InHandler s.pctl t ∨ t.pctl = resetProcessControls := by
  rcases synchronousMove_cases s n d y with ho | ⟨m, hm⟩
  · exact .inl (ho.user e)
  · rw [hm] at e
    rcases State.commit_next e with hx | ⟨x, -, e⟩
    · exact (State.receiveIac_pctl hx).imp_left .inl
    · exact .inl (.inr (.own e))

theorem FaultTaken.mono {p q : Prop} (h : FaultTaken s p t) (hpq : p → q) : FaultTaken s q t := by
  obtain ⟨e, f, a, u, h, hp, hf, ha⟩ := h
  exact ⟨e, f, a, u, h, hp, hf.imp_right (And.imp_left hpq), ha⟩

/-- What may become of the process controls in user mode, by what the instruction is. -/
def UserOutcome (s t : State) (ret calls message : Prop) : Prop :=
  t.pctl = s.pctl ∨ FaultTaken s ret t ∨
    (calls ∧ t.supervisor = true ∧ ∀ k, 2 ≤ k → t.pctl.getLsbD k = s.pctl.getLsbD k) ∨
    ((ret ∨ message) ∧ t.supervisor = true ∧ t.te = false ∧ t.pctl.extractLsb' 13 2 = 1#2 ∧
      ∀ k, k ∉ [0, 1, 8, 13, 14, 16, 17, 18, 19, 20] → t.pctl.getLsbD k = s.pctl.getLsbD k) ∨
    (message ∧ t.pctl = resetProcessControls)

namespace UserOutcome

variable {ret calls message : Prop}

theorem ofQuiet (h : t.pctl = s.pctl ∨ FaultTaken s False t) : UserOutcome s t ret calls message :=
  h.elim .inl fun h => .inr (.inl (h.mono False.elim))

theorem ofHandler (hi : ret ∨ message) (h : InHandler s.pctl t) : UserOutcome s t ret calls message :=
  .inr (.inr (.inr (.inl ⟨hi, h.supervisor, h.te, h.interrupted, h.others⟩)))

theorem ofMove (hm : message) {n : Nat} {d : Word} {y : Src} (e : synchronousMove s n d y = .next t) :
    UserOutcome s t ret calls message := by
  rcases synchronousMove_user e with h | h | h
  · exact .ofQuiet h
  · exact .ofHandler (.inr hm) h
  · exact .inr (.inr (.inr (.inr ⟨hm, h⟩)))

end UserOutcome

/-- Every instruction in user mode: ordinary ones change PC by faults only, and the six others are taken one by one. -/
theorem exec_user {i : Instr} (hs : s.supervisor = false) (e : exec i s = .next t) :
    UserOutcome s t (i = .ret) (∃ x, i = .calls x) (∃ x y, i = .synmov x y ∨ i = .synmovl x y ∨ i = .synmovq x y) := by
  cases hi : changesControls i with
  | false => exact .ofQuiet ((exec_ordinary s i hi).user e)
  | true =>
    cases i with
    | ret =>
      rcases execRet_user hs e with h | h | h
      · exact .inl h
      · exact .inr (.inl (h.mono fun _ => rfl))
      · exact .ofHandler (.inl rfl) h
    | calls x =>
      rcases execCalls_user e with h | h
      · exact .ofQuiet h
      · exact .inr (.inr (.inl ⟨⟨x, rfl⟩, h⟩))
    | modpc x y z => exact .ofQuiet (execModpc_user (x := x) hs e)
    | synmov x y => exact .ofMove ⟨x, y, .inl rfl⟩ e
    | synmovl x y => exact .ofMove ⟨x, y, .inr (.inl rfl)⟩ e
    | synmovq x y => exact .ofMove ⟨x, y, .inr (.inr rfl)⟩ e
    | _ => cases hi

end UserMode

/-- Settles O9: the outcomes of `exec_user` are those of the claim. -/
theorem userModeKeepsProcessControls : Obligations.UserModeKeepsProcessControls := by
  unfold Obligations.UserModeKeepsProcessControls
  exact fun i s t hs e => exec_user hs e

end Sys2Proof.Machine
end

section
/-! SUPPORT. Ranges of memory: which are readable or RAM, words and groups of words read after stores, and what the record
of old words holds (R81, R82, R120). -/

namespace Sys2Proof.Machine

/-! ### Ranges -/

theorem add_ofNat_succ (a : Word) (i : Nat) : a + BitVec.ofNat 32 (i + 1) = a + 1#32 + BitVec.ofNat 32 i := by
  rw [Nat.add_comm, BitVec.ofNat_add, ← BitVec.add_assoc]

theorem add_ofNat_add (a : Word) (i j : Nat) :
    a + BitVec.ofNat 32 i + BitVec.ofNat 32 j = a + BitVec.ofNat 32 (i + j) := by
  rw [BitVec.ofNat_add, BitVec.add_assoc]

/-- A range is readable when no byte of it is a bad access (R503). -/
theorem State.readable_iff (s : State) : ∀ (n : Nat) (a : Word),
    s.readable a n = true ↔ ∀ i < n, kindAt s.memMap (a + BitVec.ofNat 32 i).toNat ≠ .bad
  | 0, a => by simp [State.readable]
  | n + 1, a => by
    rw [State.readable, Bool.and_eq_true, bne_iff_ne, State.readable_iff s n]
    constructor
    · intro ⟨h0, h⟩ i hi
      cases i with
      | zero => simpa using h0
      | succ i => rw [add_ofNat_succ]; exact h i (by omega)
    · intro h
      refine ⟨by simpa using h 0 (by omega), fun i hi => ?_⟩
      have := h (i + 1) (by omega)
      rwa [add_ofNat_succ] at this

/-- A part of a readable range is readable. -/
theorem State.readable_part {s : State} {a : Word} {n : Nat} (h : s.readable a n = true) (k m : Nat) (hk : k + m ≤ n) :
    s.readable (a + BitVec.ofNat 32 k) m = true := by
  rw [State.readable_iff] at *
  intro i hi
  rw [add_ofNat_add]
  exact h (k + i) (by omega)

theorem State.ramAt.readable {s : State} {a : Word} {n : Nat} (h : s.ramAt a n) : s.readable a n = true :=
  (s.readable_iff n a).2 fun i hi e => by rw [h i hi] at e; cases e

theorem State.ramAt.part {s : State} {a : Word} {n : Nat} (h : s.ramAt a n) (k m : Nat) (hk : k + m ≤ n) :
    s.ramAt (a + BitVec.ofNat 32 k) m := by
  intro i hi
  rw [add_ofNat_add]
  exact h (k + i) (by omega)

theorem State.ramAt.congr {s t : State} {a : Word} {n : Nat} (h : s.ramAt a n) (hm : t.memMap = s.memMap) :
    t.ramAt a n := by
  intro i hi
  rw [hm]
  exact h i hi

/-! ### Words -/

theorem State.loadWord_ok {s : State} {a : Word} (h : s.readable a 4 = true) : s.loadWord a = .ok (s.readWord a) := by
  simp [State.loadWord, h]

theorem State.loadWord_bad {s : State} {a : Word} (h : s.readable a 4 = false) : s.loadWord a = .raise .badAccess := by
  simp [State.loadWord, h]

/-- A word read depends on its four bytes only. -/
theorem State.readWord_congr_at {s t : State} {a : Word}
    (h : ∀ i < 4, t.readByte (a + BitVec.ofNat 32 i) = s.readByte (a + BitVec.ofNat 32 i)) :
    t.readWord a = s.readWord a := by
  have h0 := h 0 (by decide)
  have h1 := h 1 (by decide)
  have h2 := h 2 (by decide)
  have h3 := h 3 (by decide)
  simp only [BitVec.add_zero] at h0 h1 h2 h3
  simp only [State.readWord, BitVec.ofNat_eq_ofNat, h0, h1, h2, h3]

/-- A word that has no byte in a range is read as before stores to the range. -/
theorem State.SameOutside.readWord {s t : State} {a : Word} {n : Nat} (h : State.SameOutside a n s t) {b : Word}
    (hb : ∀ i < 4, n ≤ (b + BitVec.ofNat 32 i - a).toNat) : t.readWord b = s.readWord b :=
  State.readWord_congr_at fun i hi => h _ (hb i hi)

theorem State.readWords_eq_map (s : State) : ∀ (n : Nat) (a : Word),
    s.readWords a n = (List.range n).map fun k => s.readWord (a + BitVec.ofNat 32 (4 * k))
  | 0, _ => rfl
  | n + 1, a => by
    rw [State.readWords, State.readWords_eq_map s n, List.range_succ_eq_map, List.map_cons, List.map_map]
    congr 1
    · simp
    · refine List.map_congr_left fun k _ => ?_
      rw [Function.comp_apply, Nat.mul_succ, Nat.add_comm, ← add_ofNat_add]
      rfl

theorem State.length_readWords (s : State) (a : Word) (n : Nat) : (s.readWords a n).length = n := by
  rw [State.readWords_eq_map]; simp

theorem State.loadWords_ok {s : State} {a : Word} {n : Nat} (h : s.readable a (4 * n) = true) :
    s.loadWords a n = .ok (s.readWords a n) := by
  simp [State.loadWords, h]

theorem State.loadWords_bad {s : State} {a : Word} {n : Nat} (h : s.readable a (4 * n) = false) :
    s.loadWords a n = .raise .badAccess := by
  simp [State.loadWords, h]

theorem State.readRegs_eq_map (s : State) : ∀ (n : Nat) (r : Reg),
    s.readRegs r n = (List.range n).map fun k => s.readReg (r + BitVec.ofNat 5 k)
  | 0, _ => rfl
  | n + 1, r => by
    rw [State.readRegs, State.readRegs_eq_map s n, List.range_succ_eq_map, List.map_cons, List.map_map]
    congr 1
    · simp
    · refine List.map_congr_left fun k _ => ?_
      rw [Function.comp_apply, Nat.succ_eq_add_one, Nat.add_comm, BitVec.ofNat_add, ← BitVec.add_assoc]
      rfl

theorem State.length_readRegs (s : State) (r : Reg) (n : Nat) : (s.readRegs r n).length = n := by
  rw [State.readRegs_eq_map]; simp

/-! ### Groups of words -/

@[simp] theorem length_bytesOfWord (w : Word) : (bytesOfWord w).length = 4 := rfl

theorem length_flatMap_bytesOfWord (ws : List Word) : (ws.flatMap bytesOfWord).length = 4 * ws.length := by
  induction ws with
  | nil => rfl
  | cons w ws ih => simp [ih]; omega

theorem State.writeBytes_append (bs cs : List Byte) : ∀ (a : Word) (s : State),
    s.writeBytes a (bs ++ cs) = (s.writeBytes a bs).writeBytes (a + BitVec.ofNat 32 bs.length) cs := by
  induction bs with
  | nil => intro a s; simp [State.writeBytes]
  | cons b bs ih =>
    intro a s
    rw [List.cons_append, State.writeBytes, ih, State.writeBytes, List.length_cons, add_ofNat_succ]
    rfl

/-- Words are stored as their bytes, one after another (R82). -/
theorem State.writeWords_eq_writeBytes (ws : List Word) : ∀ (a : Word) (s : State),
    s.writeWords a ws = s.writeBytes a (ws.flatMap bytesOfWord) := by
  induction ws with
  | nil => exact fun _ _ => rfl
  | cons w ws ih =>
    intro a s
    rw [State.writeWords, ih, List.flatMap_cons, State.writeBytes_append]
    rfl

/-- What is not RAM keeps nothing (R91). -/
theorem State.readByte_writeBytes_notRam (bs : List Byte) : ∀ (a : Word) (s : State) (x : Word),
    kindAt s.memMap x.toNat ≠ .ram → (s.writeBytes a bs).readByte x = s.readByte x := by
  induction bs with
  | nil => exact fun _ _ _ _ => rfl
  | cons b bs ih =>
    intro a s x hx
    rw [State.writeBytes, ih _ _ _ (by rwa [(State.writeByte_memStep a b s).memMap]), State.readByte_writeByte, if_neg]
    rintro ⟨rfl, h⟩
    exact hx h

theorem State.writeBytes_holds (s : State) (a : Word) (bs : List Byte) (h : bs.length ≤ 2 ^ 32) :
    (s.writeBytes a bs).Holds a bs := by
  intro i b hb hk
  rw [(State.writeBytes_memStep bs a s).memMap] at hk
  exact State.readByte_writeBytes bs a s i b h hb hk

/-- A store of some bytes, in the words of the claims. -/
theorem stores_of_writeBytes (s : State) (a : Word) (bs : List Byte) (hl : bs.length ≤ 2 ^ 32) (ac : ArithControls)
    (len : Word) : Stores s a bs ac len (({ s.writeBytes a bs with ac := ac } : State).advance len) := by
  have h := State.writeBytes_memStep bs a s
  have r := h.sameRegisters
  exact
    { stored := State.writeBytes_holds s a bs hl
      outside := State.writeBytes_sameOutside bs a s
      kept := State.readByte_writeBytes_notRam bs a s
      ac := rfl
      ip := by simp [h.ip]
      traced := h.traced
      rest := ⟨r.regs, r.fps, by
        have := r.special
        exact ⟨this.cached, this.pctl, this.tctl, this.proc, this.procControls, this.segTable, this.prcb,
          this.dispatchPort, this.intTable, this.intStack, this.region3, this.sysProcTable, this.faultTable,
          this.icr, this.bp0, this.bp1, this.memMap, this.restarted, this.env, this.serial⟩⟩ }

/-- The same with AC as it was. -/
theorem stores_of_writeBytes_ac (s : State) (a : Word) (bs : List Byte) (hl : bs.length ≤ 2 ^ 32) (len : Word) :
    Stores s a bs s.ac len ((s.writeBytes a bs).advance len) := by
  have h := stores_of_writeBytes s a bs hl s.ac len
  have e : ({ s.writeBytes a bs with ac := s.ac } : State) = s.writeBytes a bs := by
    conv_lhs => rw [← (State.writeBytes_memStep bs a s).ac]
  rwa [e] at h

theorem State.readWord_writeWord_ram {s : State} {a : Word} (w : Word) (h : s.ramAt a 4) :
    (s.writeWord a w).readWord a = w := State.readWord_writeWord s a w h

/-- A store of a word leaves a word that has no byte in common with it. -/
theorem State.readWord_writeWord_apart {s : State} {a b : Word} (w : Word)
    (h : ∀ i < 4, 4 ≤ (b + BitVec.ofNat 32 i - a).toNat) : (s.writeWord a w).readWord b = s.readWord b :=
  (State.writeWord_sameOutside s a w).readWord h

/-- Words stored in RAM read back (R81, R82). -/
theorem State.readWords_writeWords (ws : List Word) : ∀ (a : Word) (s : State), ws.length ≤ 2 ^ 30 →
    s.ramAt a (4 * ws.length) → (s.writeWords a ws).readWords a ws.length = ws := by
  induction ws with
  | nil => exact fun _ _ _ _ => rfl
  | cons w ws ih =>
    intro a s hl hr
    simp only [List.length_cons] at hl hr ⊢
    have ha : (a : Word) + 4 = a + BitVec.ofNat 32 4 := rfl
    rw [State.writeWords, State.readWords, ih (a + 4) _ (by omega)
      (ha ▸ (hr.part 4 (4 * ws.length) (by omega)).congr (State.writeWord_memStep a w s).memMap)]
    congr 1
    rw [(State.writeWords_sameOutside ws (a + 4) _).readWord (fun i hi => by bv_omega)]
    have h0 := hr.part 0 4 (by omega)
    rw [BitVec.add_zero] at h0
    exact State.readWord_writeWord_ram w h0

/-- The low byte of a word is the one at its address (R81). -/
theorem State.readByte_of_readWord {s : State} {a w : Word} (h : s.readWord a = w) :
    s.readByte a = w.extractLsb' 0 8 := by
  subst h
  simp only [State.readWord, wordOfBytes]
  apply BitVec.eq_of_getLsbD_eq
  intro i hi
  rw [BitVec.getLsbD_extractLsb', Nat.zero_add, BitVec.getLsbD_append, decide_eq_true hi]
  simp [hi]

/-! ### Words as slots -/

theorem byteOf_wordOfBytes (w : Word) : wordOfBytes (byteOf w 0) (byteOf w 1) (byteOf w 2) (byteOf w 3) = w := by
  apply BitVec.eq_of_getLsbD_eq
  intro i hi
  simp only [wordOfBytes, byteOf, BitVec.getLsbD_append, BitVec.getLsbD_extractLsb']
  grind

/-- A free byte of memory reads as its value: in the canonical form nothing is listed there. -/
theorem State.readByte_hole {s : State} {a : Word} {f : FreeByte} (hwf : s.mem.wf = true)
    (hk : kindAt s.memMap a.toNat ≠ .device) (hf : keyGet a.toNat s.mem.holes = some f) : s.readByte a = f.val := by
  have hcell : keyGet a.toNat s.mem.cells = none := by
    by_contra hne
    obtain ⟨b, hb⟩ := Option.ne_none_iff_exists'.1 hne
    have hmem : ∀ {l : List (Nat × Byte)}, keyGet a.toNat l = some b → (a.toNat, b) ∈ l := by
      intro l
      induction l with
      | nil => simp [keyGet]
      | cons c l ih =>
        unfold keyGet
        split
        case isTrue hk => intro h; cases h; exact hk ▸ List.mem_cons_self
        case isFalse => exact fun h => List.mem_cons_of_mem _ (ih h)
    have := (((Memory.wf_iff _).1 hwf).2.2.1 _ (hmem hb)).2.2
    rw [hf] at this
    cases this
  unfold State.readByte
  split
  case h_1 h => exact absurd h hk
  case h_2 => simp only [Memory.read, hcell, hf]

/-- The word a slot of memory holds is the word read there (log 24). -/
theorem State.readSlot_val {s : State} {a : Word} (hwf : s.mem.wf = true) (hram : s.ramAt a 4) :
    (s.readSlot a).val = s.readWord a := by
  have notDevice : ∀ i < 4, kindAt s.memMap (a + BitVec.ofNat 32 i).toNat ≠ .device := fun i hi =>
    by rw [hram i hi]; decide
  have hk0 := notDevice 0 (by decide)
  have hk1 : kindAt s.memMap (a + 1).toNat ≠ .device := notDevice 1 (by decide)
  have hk2 : kindAt s.memMap (a + 2).toNat ≠ .device := notDevice 2 (by decide)
  have hk3 : kindAt s.memMap (a + 3).toNat ≠ .device := notDevice 3 (by decide)
  rw [BitVec.add_zero] at hk0
  unfold State.readSlot
  split
  case h_1 f hf =>
    split
    case isTrue h =>
      obtain ⟨h0, h1, h2, h3⟩ := h
      rw [State.readWord, State.readByte_hole hwf hk0 hf, State.readByte_hole hwf hk1 h1, State.readByte_hole hwf hk2 h2,
        State.readByte_hole hwf hk3 h3]
      simp only [FreeByte.val, h0]
      exact (byteOf_wordOfBytes _).symm
    case isFalse => rfl
  case h_2 => rfl

end Sys2Proof.Machine
end

section
/-! SUPPORT. Data movement: effective addresses, registers, loads, stores, moves and atomic updates. -/

namespace Sys2Proof.Machine

/-! ### Registers and addresses -/

/-- Settles O16: the two banks lie side by side, and a write changes one place of one bank. -/
theorem registersAreSeparate : Obligations.RegistersAreSeparate := by
  intro s r q v
  refine ⟨?_, s.contents_setReg_self r v, State.contents_setReg_ne v, State.readReg_eq_contents, fun h => ?_⟩
  · unfold State.contents
    by_cases hr : r.toNat < 16
    · have hg : isGlobal r = false := by revert hr; revert r; decide
      have hi : bankIndex r = ⟨r.toNat, hr⟩ := Fin.ext (Nat.mod_eq_of_lt hr)
      simp [hr, hg, State.localReg, hi]
    · have hg : isGlobal r = true := by revert hr; revert r; decide
      have hi : bankIndex r = ⟨r.toNat - 16, by omega⟩ := Fin.ext (show r.toNat % 16 = r.toNat - 16 by omega)
      simp [hr, hg, hi]
  · rw [State.readReg_setReg, if_neg fun e => h e.1]

/-- The number a scale stands for (R151). -/
def scaleFactor (sc : Scale) : Nat := match sc with | .x1 => 1 | .x2 => 2 | .x4 => 4 | .x8 => 8 | .x16 => 16

/-- R151: a scaled index is the index times the scale, modulo 2^32. -/
theorem toNat_scaled (sc : Scale) (w : Word) : (scaled sc w).toNat = w.toNat * scaleFactor sc % 2 ^ 32 := by
  cases sc <;> simp only [scaled, scaleFactor, BitVec.toNat_shiftLeft, Nat.shiftLeft_eq]; omega

/-- Settles O15: each mode's sum, read as a number. -/
theorem effectiveAddresses : Obligations.EffectiveAddresses := by
  intro s b x d off
  refine ⟨?_, ?_, rfl, ?_, rfl, ?_, fun sc => ?_⟩
  · simp only [effectiveAddress, BitVec.toNat_setWidth]; omega
  · simp only [effectiveAddress, BitVec.toNat_add, BitVec.toNat_setWidth]; omega
  · simp only [effectiveAddress, BitVec.toNat_add, BitVec.toNat_ofNat]; omega
  · exact BitVec.toNat_add ..
  · simp only [effectiveAddress, BitVec.toNat_add, toNat_scaled, Nat.add_mod_mod, Nat.mod_add_mod]
    exact ⟨rfl, rfl, rfl⟩

/-! ### Loads -/

/-- A load of the `n` bytes at the address of `m`: it writes `ws`, or takes Machine.BadAccess. -/
def LoadOutcome (s : State) (r : Reg) (m : MemOp) (n : Nat) (ws : List Word) (x : Res) : Prop :=
  (s.readable (effectiveAddress s m) n = true → Gives x (Writes s r ws s.ac (memLength m))) ∧
    (s.readable (effectiveAddress s m) n = false → x = takeFault .badAccess s.ip s.ip s)

theorem loadOne_outcome {k : Nat} (s : State) (r : Reg) (m : MemOp) (n : Nat) {read : State → Word → Eff (BitVec k)}
    (extend : BitVec k → Word) (v : BitVec k)
    (hread : read s (effectiveAddress s m) =
      if s.readable (effectiveAddress s m) n then .ok v else .raise .badAccess) :
    LoadOutcome s r m n [extend v] (loadOne s r m read extend) := by
  unfold loadOne
  constructor <;> intro h <;> rw [hread, h]
  · exact ⟨_, rfl, writes_of_setReg_ac r _ _⟩
  · rfl

theorem aligned_eq {α : Type} {n : Nat} {r : Reg} (x : Eff α) (h : r.toNat % n = 0) : aligned n r x = x := by
  rw [aligned, if_pos (startsGroup_iff.2 h)]

theorem loadGroup_outcome (s : State) (r : Reg) (m : MemOp) (n : Nat) (hn : n ≤ 4) (h : r.toNat % groupSize n = 0) :
    LoadOutcome s r m (4 * n)
      ((List.range n).map fun k => s.readWord (effectiveAddress s m + BitVec.ofNat 32 (4 * k))) (loadGroup s r m n) := by
  unfold loadGroup
  rw [aligned_eq _ h, ← State.readWords_eq_map]
  constructor <;> intro hr
  · rw [State.loadWords_ok hr]
    exact ⟨_, rfl, writes_of_setRegs_ac r _ (by rw [State.length_readWords]; omega) _⟩
  · rw [State.loadWords_bad hr]
    rfl

/-- Settles O12. -/
theorem loadsWriteTheirRegisters : Obligations.LoadsWriteTheirRegisters := by
  intro s r m
  refine ⟨loadOne_outcome s r m 4 id _ rfl, loadOne_outcome s r m 1 (·.setWidth 32) _ rfl,
    loadOne_outcome s r m 1 (·.signExtend 32) _ rfl, loadOne_outcome s r m 2 (·.setWidth 32) _ rfl,
    loadOne_outcome s r m 2 (·.signExtend 32) _ rfl, loadGroup_outcome s r m 2 (by decide), fun h =>
    ⟨loadGroup_outcome s r m 3 (by decide) h, loadGroup_outcome s r m 4 (by decide) h⟩⟩

/-! ### Stores -/

theorem storeLow_stores (s : State) (r : Reg) (m : MemOp) (n : Nat) :
    Stores s (effectiveAddress s m) ((bytesOfWord (s.readReg r)).take n) s.ac (memLength m) (storeLow s r m n) :=
  stores_of_writeBytes_ac s _ _ (by rw [List.length_take, length_bytesOfWord]; omega) _

theorem storeGroup_stores (s : State) (r : Reg) (m : MemOp) (n : Nat) (hn : n ≤ 4) (h : r.toNat % groupSize n = 0) :
    Gives (storeGroup s r m n) (Stores s (effectiveAddress s m)
      (((List.range n).map fun k => s.readReg (r + BitVec.ofNat 5 k)).flatMap bytesOfWord) s.ac (memLength m)) := by
  unfold storeGroup
  rw [aligned_eq _ h, ← State.readRegs_eq_map, State.writeWords_eq_writeBytes]
  refine ⟨_, rfl, stores_of_writeBytes_ac s _ _ ?_ _⟩
  rw [length_flatMap_bytesOfWord, State.length_readRegs]
  omega

/-- A sub-word integer store: what it reports after the store (R192, R193, R210). -/
theorem storeInteger_outcome (s : State) (r : Reg) (m : MemOp) (n k : Nat) {fits : Prop}
    (hf : fitsInt k (s.readReg r).toInt = true ↔ fits) {x : Res}
    (hx : x = if fitsInt k (s.readReg r).toInt then .next (storeLow s r m n)
      else integerOverflow s.ip (storeLow s r m n)) :
    let bs := (bytesOfWord (s.readReg r)).take n
    (fits → Gives x (Stores s (effectiveAddress s m) bs s.ac (memLength m))) ∧
      (¬fits → s.ac.om = true →
        Gives x (Stores s (effectiveAddress s m) bs { s.ac with oflow := true } (memLength m))) ∧
      (¬fits → s.ac.om = false → ∃ t, Stores s (effectiveAddress s m) bs s.ac (memLength m) t ∧
        x = takeFault .integerOverflow s.ip t.ip t) := by
  have hs := storeLow_stores s r m n
  have hac : (storeLow s r m n).ac = s.ac := hs.ac
  subst hx
  refine ⟨fun h => ⟨_, if_pos (hf.2 h), hs⟩, fun h ho =>
    ⟨{ storeLow s r m n with ac := { s.ac with oflow := true } }, ?_, ?_⟩, fun h ho => ⟨_, hs, ?_⟩⟩
  · rw [if_neg (fun e => h (hf.1 e)), integerOverflow, hac, ho]
    rfl
  · exact stores_of_writeBytes s _ _ (by rw [List.length_take, length_bytesOfWord]; omega) _ _
  · rw [if_neg (fun e => h (hf.1 e)), integerOverflow, hac, ho]
    rfl

theorem fitsInt_iff (k : Nat) (r : Int) : fitsInt k r = true ↔ -(2 ^ k : Int) ≤ r ∧ r < 2 ^ k := by
  rw [fitsInt, Bool.and_eq_true, decide_eq_true_eq, decide_eq_true_eq]
  omega

/-- Settles O13. -/
theorem storesWriteOnlyTheirBytes : Obligations.StoresWriteOnlyTheirBytes := by
  intro s r m
  exact ⟨⟨_, rfl, storeLow_stores s r m 4⟩, ⟨_, rfl, storeLow_stores s r m 1⟩, ⟨_, rfl, storeLow_stores s r m 2⟩,
    storeGroup_stores s r m 2 (by decide),
    fun h => ⟨storeGroup_stores s r m 3 (by decide) h, storeGroup_stores s r m 4 (by decide) h⟩,
    storeInteger_outcome s r m 1 7 (fitsInt_iff 7 _) rfl, storeInteger_outcome s r m 2 15 (fitsInt_iff 15 _) rfl⟩

/-! ### Moves -/

/-- A move of a group: from a group, or from a literal extended with zeros. -/
theorem moveGroup_writes (s : State) (r : Reg) (n : Nat) (h0 : 0 < n) (hn : n ≤ 4) (h : r.toNat % groupSize n = 0) :
    (∀ q : Reg, q.toNat % groupSize n = 0 → Gives (moveGroup s (.reg q) (.reg r) n)
      (Writes s r ((List.range n).map fun k => s.readReg (q + BitVec.ofNat 5 k)) s.ac 4#32)) ∧
    ∀ v : BitVec 5, Gives (moveGroup s (.lit v) (.reg r) n)
      (Writes s r (v.setWidth 32 :: List.replicate (n - 1) 0#32) s.ac 4#32) := by
  have write : ∀ ws : List Word, ws.length = n →
      Gives (s.commit ((dstWriteWords (.reg r) ws s).map (State.advance 4#32))) (Writes s r ws s.ac 4#32) :=
    fun ws hl => s.resultWords_writes r ws (by omega) (startsGroup_iff.2 (hl ▸ h))
  constructor
  · intro q hq
    rw [moveGroup, srcWords, aligned_eq _ hq, ← State.readRegs_eq_map]
    exact write _ (State.length_readRegs ..)
  · intro v
    rw [moveGroup, srcWords]
    exact write _ (by simp; omega)

/-- Settles O14. -/
theorem movesCopyTheirSource : Obligations.MovesCopyTheirSource := by
  refine ⟨fun s r m => ⟨_, rfl, writes_of_setReg_ac r _ _⟩, fun s x r => s.result_writes r _, fun s r => ?_⟩
  exact ⟨moveGroup_writes s r 2 (by decide) (by decide), moveGroup_writes s r 3 (by decide) (by decide),
    moveGroup_writes s r 4 (by decide) (by decide)⟩

end Sys2Proof.Machine
end

section
/-! SUPPORT. Misaligned register groups, shape by shape (R202), and the atomic updates (R367 to R369). -/

namespace Sys2Proof.Machine

variable {s : State} {f : FpFormat}

/-! ### Misaligned groups are refused -/

theorem aligned_refuse {α : Type} {n : Nat} {r : Reg} (x : Eff α) (h : r.toNat % n ≠ 0) :
    aligned n r x = .refuse .registerAlignment := by
  rw [aligned, if_neg (mt startsGroup_iff.1 h)]

theorem fsrcStarts_misaligned {r : Reg} (h : r.toNat % groupSize f.words ≠ 0) : fsrcStarts f (.reg r) = false :=
  Bool.eq_false_iff.2 (mt startsGroup_iff.1 h)

theorem fdstStarts_misaligned {r : Reg} (h : r.toNat % groupSize f.words ≠ 0) : fdstStarts f (.reg r) = false :=
  Bool.eq_false_iff.2 (mt startsGroup_iff.1 h)

theorem loadGroup_misaligned {r : Reg} {n : Nat} (m : MemOp) (h : r.toNat % groupSize n ≠ 0) :
    loadGroup s r m n = .refused .registerAlignment := by
  rw [loadGroup, aligned_refuse _ h]; rfl

theorem storeGroup_misaligned {r : Reg} {n : Nat} (m : MemOp) (h : r.toNat % groupSize n ≠ 0) :
    storeGroup s r m n = .refused .registerAlignment := by
  rw [storeGroup, aligned_refuse _ h]; rfl

theorem srcWords_misaligned {r : Reg} {n : Nat} (h : r.toNat % groupSize n ≠ 0) :
    srcWords s n (.reg r) = .refuse .registerAlignment := by
  rw [srcWords, aligned_refuse _ h]

/-- A source of some words is refused, or it has that many words. -/
theorem srcWords_cases (n : Nat) (hn : 0 < n) (x : Src) :
    srcWords s n x = .refuse .registerAlignment ∨ ∃ ws, srcWords s n x = .ok ws ∧ ws.length = n := by
  cases x with
  | reg r =>
    rw [srcWords, aligned]
    split
    · exact .inr ⟨s.readRegs r n, rfl, State.length_readRegs ..⟩
    · exact .inl rfl
  | lit v => exact .inr ⟨_, rfl, by simp; omega⟩

theorem dstWriteWords_misaligned {r : Reg} {ws : List Word} (h : r.toNat % groupSize ws.length ≠ 0) (t : State) :
    dstWriteWords (.reg r) ws t = .refuse .registerAlignment := by
  rw [dstWriteWords, aligned_refuse _ h]

theorem moveGroup_source_misaligned {r : Reg} {n : Nat} (d : Dst) (h : r.toNat % groupSize n ≠ 0) :
    moveGroup s (.reg r) d n = .refused .registerAlignment := by
  rw [moveGroup, srcWords_misaligned h]; rfl

theorem moveGroup_target_misaligned {r : Reg} {n : Nat} (hn : 0 < n) (x : Src) (h : r.toNat % groupSize n ≠ 0) :
    moveGroup s x (.reg r) n = .refused .registerAlignment := by
  unfold moveGroup
  rcases srcWords_cases (s := s) n hn x with hx | ⟨ws, hx, hl⟩
  · rw [hx]; rfl
  · rw [hx, Eff.bind_ok, dstWriteWords_misaligned (hl ▸ h)]; rfl

theorem resultWords_misaligned {r : Reg} {ws : List Word} (h : r.toNat % groupSize ws.length ≠ 0) :
    s.resultWords (.reg r) ws = .refused .registerAlignment := by
  rw [State.resultWords, dstWriteWords_misaligned h]; rfl

theorem execEdiv_source_misaligned {r : Reg} (x : Src) (d : Dst) (h : r.toNat % 2 ≠ 0) :
    execEdiv x (.reg r) d s = .refused .registerAlignment := by
  rw [execEdiv, srcWords_misaligned h]; rfl

theorem execEdiv_target_misaligned {r : Reg} (x y : Src) (h : r.toNat % 2 ≠ 0) :
    execEdiv x y (.reg r) s = .refused .registerAlignment := by
  unfold execEdiv
  rcases srcWords_cases (s := s) 2 (by decide) y with hy | ⟨ws, hy, hl⟩
  · rw [hy]; rfl
  · rw [hy, Eff.bind_ok, dstWriteWords_misaligned (by rwa [hl])]; rfl

theorem fpFromInt_refused {n : Eff Int} (d : FDst) (h : n = .refuse .registerAlignment) :
    fpFromInt s n d = .refused .registerAlignment := by
  rw [fpFromInt, h]; rfl

theorem fpToInt_misaligned {r : Reg} {n : Nat} (rc : BitVec 2) (x : FSrc) (h : r.toNat % groupSize n ≠ 0) :
    fpToInt s rc n x (.reg r) = .refused .registerAlignment := by
  rw [fpToInt, dstStarts, ifAligned, if_neg (mt startsGroup_iff.1 h)]; rfl

theorem fpOperands_refused {x y : FSrc} {d : FDst} {k : FpTarget × FpOperand × FpOperand → Res}
    (h : (fdstStarts f d && fsrcStarts f x && fsrcStarts f y) = false) :
    s.commitThen (fpOperands s f x y d) k = .refused .registerAlignment := by
  rw [fpOperands_misaligned h]; rfl

theorem fpOperand_refused {x : FSrc} {d : FDst} {i : Nat} {k : FpTarget × FpOperand → Res}
    (h : (fdstStarts f d && fsrcStarts f x) = false) :
    s.commitThen (fpOperand s f i x d) k = .refused .registerAlignment := by
  rw [fpOperand_misaligned i h]; rfl

theorem fpCompare_refused {x y : FSrc} {b : Bool} (h : (fsrcStarts f x && fsrcStarts f y) = false) :
    fpCompare s f b x y = .refused .registerAlignment := by
  rw [fpCompare, h]; rfl

theorem fpClassify_misaligned {r : Reg} (h : r.toNat % groupSize f.words ≠ 0) :
    fpClassify s f (.reg r) = .refused .registerAlignment := by
  rw [fpClassify, readFSrc, aligned_refuse _ h]; rfl

/-! ### The instructions -/

/-- The two-source instructions of a format, with a misaligned group in any of their three places. -/
theorem fpOperands_refused_anywhere {r : Reg} (h : r.toNat % groupSize f.words ≠ 0) (u v : FSrc) (d : FDst)
    (k : FpTarget × FpOperand × FpOperand → Res) :
    s.commitThen (fpOperands s f (.reg r) u d) k = .refused .registerAlignment ∧
      s.commitThen (fpOperands s f u (.reg r) d) k = .refused .registerAlignment ∧
      s.commitThen (fpOperands s f u v (.reg r)) k = .refused .registerAlignment := by
  have hx := fsrcStarts_misaligned h
  have hd := fdstStarts_misaligned h
  exact ⟨fpOperands_refused (by simp [hx]), fpOperands_refused (by simp [hx]), fpOperands_refused (by simp [hd])⟩

/-- The one-source instructions of a format, with a misaligned group in either place. -/
theorem fpOperand_refused_anywhere {r : Reg} (h : r.toNat % groupSize f.words ≠ 0) (i : Nat) (u : FSrc) (d : FDst) :
    (∀ k, s.commitThen (fpOperand s f i (.reg r) d) k = .refused .registerAlignment) ∧
      ∀ k, s.commitThen (fpOperand s f i u (.reg r)) k = .refused .registerAlignment :=
  ⟨fun _ => fpOperand_refused (by simp [fsrcStarts_misaligned h]),
    fun _ => fpOperand_refused (by simp [fdstStarts_misaligned h])⟩

/-- Settles O17: one refusal for each shape of operands. -/
theorem misalignedGroupsAreRefused : Obligations.MisalignedGroupsAreRefused := by
  intro s r q m x y n u v d g
  constructor
  · intro h
    have three := fpOperands_refused_anywhere (s := s) (f := .long) (r := r) h
    have two := fpOperand_refused_anywhere (s := s) (f := .long) (r := r) h
    have compare : fsrcStarts .long (.reg r) = false := fsrcStarts_misaligned h
    simp only [List.forall_mem_cons, List.not_mem_nil, false_implies, implies_true, and_true]
    exact ⟨loadGroup_misaligned m h, storeGroup_misaligned m h, moveGroup_source_misaligned g h,
      moveGroup_target_misaligned (by decide) _ h, moveGroup_target_misaligned (by decide) _ h,
      resultWords_misaligned h, execEdiv_source_misaligned x g h, execEdiv_target_misaligned x y h,
      resultWords_misaligned h, fpFromInt_refused d (by rw [srcWords_misaligned h]; rfl),
      fpToInt_misaligned _ u h, fpToInt_misaligned _ u h,
      (three u v d _).1, (three u v d _).2.1, (three u v d _).2.2,
      (three u v d _).1, (three u v d _).2.1, (three u v d _).2.2,
      (three u v d _).1, (three u v d _).2.1, (three u v d _).2.2,
      (three u v d _).1, (three u v d _).2.1, (three u v d _).2.2,
      (three u v d _).1, (three u v d _).2.1, (three u v d _).2.2,
      (three u v d _).1, (three u v d _).2.1, (three u v d _).2.2,
      (three u v d _).1, (three u v d _).2.1, (three u v d _).2.2,
      (three u v d _).1, (three u v d _).2.1, (three u v d _).2.2,
      (two 2 u d).1 _, (two 2 u d).2 _, (two 1 u d).1 _, (two 1 u d).2 _,
      (two 1 u d).1 _, (two 1 u d).2 _, (two 1 u d).1 _, (two 1 u d).2 _,
      (two 1 u d).1 _, (two 1 u d).2 _, (two 1 u d).1 _, (two 1 u d).2 _,
      (two 1 u d).1 _, (two 1 u d).2 _, (two 1 u d).1 _, (two 1 u d).2 _,
      (two 1 u d).1 _, (two 1 u d).2 _,
      fpCompare_refused (by simp [compare]), fpCompare_refused (by simp [compare]),
      fpCompare_refused (by simp [compare]), fpCompare_refused (by simp [compare]), fpClassify_misaligned h⟩
  · intro h
    have three := fpOperands_refused_anywhere (s := s) (f := .extended) (r := r) h
    have two := fpOperand_refused_anywhere (s := s) (f := .extended) (r := r) h
    simp only [List.forall_mem_cons, List.not_mem_nil, false_implies, implies_true, and_true]
    exact ⟨loadGroup_misaligned m h, storeGroup_misaligned m h, loadGroup_misaligned m h, storeGroup_misaligned m h,
      moveGroup_source_misaligned g h, moveGroup_target_misaligned (by decide) _ h,
      moveGroup_source_misaligned g h, moveGroup_target_misaligned (by decide) _ h,
      moveGroup_target_misaligned (by decide) _ h, moveGroup_target_misaligned (by decide) _ h,
      (two 1 u d).1 _, (two 1 u d).2 _, (three u v d _).1, (three u v d _).2.1, (three u v d _).2.2,
      (three u v d _).1, (three u v d _).2.1, (three u v d _).2.2⟩

/-! ### Atomic updates -/

/-- A locked update: the old word to the register, the new one to memory; or Machine.BadAccess with nothing written. -/
theorem atomicUpdate_outcome (s : State) (x : Src) (r : Reg) (change : Word → Word) :
    let a := srcVal s x &&& 0xFFFFFFFC#32
    (s.readable a 4 = true → Gives (atomicUpdate s x (.reg r) change) fun t => WritesGroup s r [s.readWord a] t ∧
      t.Holds a (bytesOfWord (change (s.readWord a))) ∧ State.SameOutside a 4 s t ∧ t.ip = s.ip + 4#32 ∧
      t.ac = s.ac ∧ t.fps = s.fps ∧ SameSpecial s t) ∧
    (s.readable a 4 = false → atomicUpdate s x (.reg r) change = takeFault .badAccess s.ip s.ip s) := by
  intro a
  have unfolded : atomicUpdate s x (.reg r) change = s.commit ((s.loadWord a).bind fun old =>
      (dstWrite (.reg r) old (s.writeWord a (change old))).map (State.advance 4#32)) := rfl
  constructor <;> intro hr <;> rw [unfolded]
  · rw [State.loadWord_ok hr]
    have st := State.writeWord_memStep a (change (s.readWord a)) s
    have w := writes_of_setReg_ac (s := s.writeWord a (change (s.readWord a))) r (s.readWord a) 4#32
    have holds := State.writeBytes_holds s a (bytesOfWord (change (s.readWord a))) (by simp)
    refine ⟨_, rfl, ⟨w.group.written, fun q hq => (w.group.others q hq).trans (st.contents q)⟩, fun i b hb hk => ?_,
      fun z hz => ?_, by rw [w.ip, st.ip], by rw [w.ac, st.ac], by rw [w.fps, st.fps],
      st.sameSpecial.trans w.special⟩
    · rw [w.bytes]
      exact holds i b hb (by rwa [w.special.memMap] at hk)
    · rw [w.bytes]
      exact State.writeWord_sameOutside s a _ z hz
  · rw [State.loadWord_bad hr]
    rfl

/-- Settles O39. -/
theorem atomicUpdates : Obligations.AtomicUpdates := fun s x y r =>
  ⟨atomicUpdate_outcome s x r (· + srcVal s y),
    atomicUpdate_outcome s x r fun old => mergeMask (srcVal s y) (s.readReg r) old⟩

end Sys2Proof.Machine
end

section
/-! SUPPORT. Arithmetic: what each operation of two sources computes, and when a result overflows (R210 to R231). -/

namespace Sys2Proof.Machine

/-! ### Results -/

/-- A result may be named by any word it equals. -/
theorem State.result_writes_eq (s : State) (r : Reg) {v w : Word} (h : v = w) :
    Gives (s.result (.reg r) v) (Writes s r [w] s.ac 4#32) := h ▸ s.result_writes r v

theorem State.resultCc_writes_eq (s : State) (r : Reg) {v w : Word} {c d : BitVec 3} (h : v = w) (hc : c = d) :
    Gives (s.resultCc (.reg r) v c) (Writes s r [w] { s.ac with cc := d } 4#32) := h ▸ hc ▸ s.resultCc_writes r v c

theorem State.resultOnlyCc_writes_eq (s : State) (r : Reg) {c d : BitVec 3} (h : c = d) :
    Gives (s.resultOnlyCc c) (Writes s r [] { s.ac with cc := d } 4#32) := h ▸ s.resultOnlyCc_writes r c

theorem IntegerOutcome.congr {s : State} {r : Reg} {w : Word} {p q : Prop} {x : Res} (h : IntegerOutcome s r w p x)
    (e : p ↔ q) : IntegerOutcome s r w q x := propext e ▸ h

/-- R210: the word written, and an overflow exactly when the exact result does not fit. -/
theorem State.resultOverflow_fits (s : State) (r : Reg) (v : Word) (n : Int) :
    IntegerOutcome s r v (-(2 ^ 31 : Int) ≤ n ∧ n < 2 ^ 31) (s.resultOverflow (.reg r) v (!fitsInt 31 n)) := by
  refine (s.resultOverflow_outcome r v _).congr ?_
  rw [Bool.not_eq_false', fitsInt_iff]

theorem toInt_ofInt_of_fits {n : Int} (h : -(2 ^ 31 : Int) ≤ n ∧ n < 2 ^ 31) : (BitVec.ofInt 32 n).toInt = n := by
  rw [BitVec.toInt_ofInt]
  exact Int.bmod_eq_of_le (by omega) (by omega)

theorem toInt_bounds (w : Word) : -(2 ^ 31 : Int) ≤ w.toInt ∧ w.toInt < 2 ^ 31 :=
  ⟨BitVec.le_toInt w, BitVec.toInt_lt⟩

/-! ### Shifts and rotate -/

/-- A shift right rounds toward minus infinity: all counts from 31 on give the sign. -/
theorem ofInt_fdiv_eq_sshiftRight (v : Word) (n : Nat) :
    BitVec.ofInt 32 (v.toInt.fdiv (2 ^ min n 32)) = v.sshiftRight (min n 31) := by
  have hv := toInt_bounds v
  rw [BitVec.sshiftRight, Int.fdiv_eq_ediv_of_nonneg _ (by positivity), Int.shiftRight_eq_div_pow]
  congr 1
  rcases Nat.lt_or_ge n 32 with h | h
  · rw [Nat.min_eq_left (by omega : n ≤ 32), Nat.min_eq_left (by omega : n ≤ 31)]
    push_cast
    rfl
  · rw [Nat.min_eq_right h, Nat.min_eq_right (by omega : 31 ≤ n)]
    norm_num
    omega

theorem shifts_eq_rotateLeft (v : Word) (k : Nat) (h : k < 32) : v <<< k ||| v >>> (32 - k) = v.rotateLeft k := by
  rw [BitVec.rotateLeft_def, Nat.mod_eq_of_lt h]

/-- Settles O18: in four rows the model writes the same function in other words. -/
theorem plainOperationsWriteOneRegister : Obligations.PlainOperationsWriteOneRegister := by
  have swap : ∀ (n : Nat) (v w : Word), (if 32 ≤ n then v else w) = if n < 32 then w else v := fun n v w => by
    simp only [← Nat.not_lt, ite_not]
  unfold Obligations.PlainOperationsWriteOneRegister plainRows
  simp only [List.forall_mem_cons, List.not_mem_nil, false_implies, implies_true, and_true]
  refine ⟨?_, ?_, ?_, ?_, ?_, ?_, ?_, ?_, ?_, ?_, ?_, ?_, ?_, ?_, ?_, ?_, ?_, ?_, ?_, ?_, ?_⟩ <;> intro s x y r
  case refine_4 => exact s.result_writes_eq r (swap ..)
  case refine_5 => exact s.result_writes_eq r (swap ..)
  case refine_6 => exact s.result_writes_eq r (ofInt_fdiv_eq_sshiftRight ..)
  case refine_8 => exact s.result_writes_eq r (shifts_eq_rotateLeft _ _ (Nat.mod_lt _ (by decide)))
  all_goals exact s.result_writes r _

/-! ### Carry -/

theorem getLsbD_31 (w : Word) : w.getLsbD 31 = w.msb := (BitVec.msb_eq_getLsbD_last w).symm

/-- Settles O19: `subc` adds the complement. -/
theorem carryArithmetic : Obligations.CarryArithmetic := by
  intro s x y r
  constructor
  · refine s.resultCc_writes_eq r rfl ?_
    simp only [addCarry, carryCc, getLsbD_31, State.carry]
    rfl
  · refine s.resultCc_writes_eq r ?_ ?_
    · simp only [subCarry, BitVec.toNat_not, State.carry]
    · simp only [subCarry, carryCc, getLsbD_31, BitVec.toNat_not, State.carry]

/-! ### Integer operations that may overflow -/

/-- Settles O20. -/
theorem integerOperationsReportOverflow : Obligations.IntegerOperationsReportOverflow := by
  intro s x y r
  refine ⟨?_, ?_⟩
  · unfold integerRows
    simp only [List.forall_mem_cons, List.not_mem_nil, false_implies, implies_true, and_true]
    exact ⟨s.resultOverflow_fits r _ _, s.resultOverflow_fits r _ _, s.resultOverflow_fits r _ _⟩
  · refine ⟨_, fun h => ?_, s.resultOverflow_fits r _ _⟩
    rw [if_pos ((fitsInt_iff 31 _).2 h), toInt_ofInt_of_fits h]

/-! ### Divisions -/

theorem unlessZero_of_ne (s : State) {d : Word} (k : Res) (h : d ≠ 0#32) : unlessZero s d k = k := if_neg h

theorem toInt_ne_zero {w : Word} (h : w ≠ 0#32) : w.toInt ≠ 0 := fun e => h (BitVec.eq_of_toInt_eq (by simpa using e))

/-- Of the quotients of two words only -2^31 by -1 does not fit (R221). -/
theorem tdiv_fits_iff {a b : Int} (ha : a ≠ 0) (hb : -(2 ^ 31 : Int) ≤ b ∧ b < 2 ^ 31) :
    (-(2 ^ 31 : Int) ≤ b.tdiv a ∧ b.tdiv a < 2 ^ 31) ↔ ¬ (b = -2 ^ 31 ∧ a = -1) := by
  rcases (by omega : a = 1 ∨ a = -1 ∨ 2 ≤ a.natAbs) with rfl | rfl | h
  · rw [Int.tdiv_one]; omega
  · rw [Int.tdiv_neg, Int.tdiv_one]; omega
  · have hq := Int.natAbs_tdiv b a
    have : b.natAbs / a.natAbs ≤ b.natAbs / 2 := Nat.div_le_div_left h (by decide)
    have hq' : (b.tdiv a).natAbs ≤ b.natAbs / 2 := by rw [hq]; exact this
    omega

/-- The floored modulus is smaller than the divisor and has its sign, if it is not 0 (R225). -/
theorem fmod_bounds {a : Int} (b : Int) (ha : a ≠ 0) :
    (0 < a ∧ 0 ≤ b.fmod a ∧ b.fmod a < a) ∨ (a < 0 ∧ a < b.fmod a ∧ b.fmod a ≤ 0) := by
  rcases Int.lt_or_gt_of_ne ha with h | h
  · have := Int.fmod_nonneg_of_pos (-b) (show 0 < -a by omega)
    have h2 := Int.fmod_lt_of_pos (-b) (show 0 < -a by omega)
    have h3 : (-b).fmod (-a) = -(b.fmod a) := Int.neg_fmod_neg ..
    omega
  · exact .inl ⟨h, Int.fmod_nonneg_of_pos b h, Int.fmod_lt_of_pos b h⟩

theorem modulus_spec {a : Word} (b : Word) (ha : a ≠ 0#32) :
    let v := BitVec.ofInt 32 (b.toInt.fmod a.toInt)
    (∃ q : Int, v.toInt = b.toInt - q * a.toInt) ∧ v.toInt.natAbs < a.toInt.natAbs ∧ (v.toInt ≠ 0 → v.msb = a.msb) := by
  have hm := fmod_bounds b.toInt (toInt_ne_zero ha)
  have ha' := toInt_bounds a
  have hv := toInt_ofInt_of_fits (n := b.toInt.fmod a.toInt) (by omega)
  intro v
  refine ⟨⟨b.toInt.fdiv a.toInt, ?_⟩, ?_, fun h0 => ?_⟩
  · rw [hv, Int.fmod_def, Int.mul_comm]
  · rw [hv]; omega
  · rw [BitVec.msb_eq_toInt, BitVec.msb_eq_toInt, hv]
    rw [hv] at h0
    exact decide_eq_decide.2 (by omega)

/-- Settles O21. -/
theorem divisionsOfNonzeroDivisors : Obligations.DivisionsOfNonzeroDivisors := by
  intro s x y r a b ha
  have run : ∀ (k : Res) (P : Res → Prop), P k → P (unlessZero s a k) := fun k P h => by
    rwa [unlessZero_of_ne s k ha]
  have fits := tdiv_fits_iff (toInt_ne_zero ha) (toInt_bounds b)
  refine ⟨run _ (Gives · _) (s.result_writes_eq r (BitVec.udiv_def ..)),
    run _ (Gives · _) (s.result_writes_eq r (BitVec.umod_def ..)),
    run _ (IntegerOutcome s r _ _) ((s.resultOverflow_fits r _ _).congr fits), ?_,
    _, run _ (Gives · _) (s.result_writes r _), modulus_spec b ha⟩
  have rem : b.toInt.tmod a.toInt = b.toInt - b.toInt.tdiv a.toInt * a.toInt := by rw [Int.tmod_def, Int.mul_comm]
  rw [← rem]
  exact run _ (IntegerOutcome s r _ _) ((s.resultOverflow_fits r _ _).congr fits)

end Sys2Proof.Machine
end

section
/-! SUPPORT. Extended multiply and divide, bit operations and compares (R219, R222, R251 to R278). -/

namespace Sys2Proof.Machine

/-! ### Extended multiply and divide -/

theorem toNat_append_word (high low : Word) : (high ++ low).toNat = low.toNat + 2 ^ 32 * high.toNat := by
  rw [BitVec.toNat_append, Nat.shiftLeft_eq, Nat.mul_comm, ← Nat.two_pow_add_eq_or_of_lt low.isLt, Nat.add_comm]

/-- What `ediv` does once its dividend is read: Arithmetic.ZeroDivide, or the remainder and the quotient (R222). -/
theorem execEdiv_divides {s : State} {x y : Src} {r : Reg} {ws : List Word} {n : Nat} (hy : srcWords s 2 y = .ok ws)
    (hl : ws.length = 2) (hn : (ws.getD 1 0 ++ ws.getD 0 0).toNat = n) (hr : r.toNat % 2 = 0) :
    let d := (srcVal s x).toNat
    if d = 0 then execEdiv x y (.reg r) s = takeFault .zeroDivide s.ip s.ip s
    else ∃ q : Word, (n / d < 2 ^ 32 → q.toNat = n / d) ∧
      Gives (execEdiv x y (.reg r) s) (Writes s r [BitVec.ofNat 32 (n % d), q] s.ac 4#32) := by
  intro d
  have hw : dstWriteWords (.reg r) ws s = .ok (s.setRegs r ws) := by
    rw [dstWriteWords, aligned_eq _ (by rwa [hl])]
  have run : execEdiv x y (.reg r) s = unlessZero s (srcVal s x) (s.resultWords (.reg r)
      [BitVec.ofNat 32 (n % d), if n / d < 2 ^ 32 then BitVec.ofNat 32 (n / d) else Config.freeWord s.serial 102]) := by
    rw [execEdiv, hy, Eff.bind_ok, hw, Eff.map_ok, State.commitThen_ok, hn]
  split
  case isTrue h => rw [run, unlessZero, if_pos (BitVec.eq_of_toNat_eq h)]
  case isFalse h =>
    have hd : srcVal s x ≠ 0#32 := fun e => h (by rw [show d = (srcVal s x).toNat from rfl, e]; rfl)
    rw [run, unlessZero_of_ne s _ hd]
    refine ⟨_, fun hq => ?_, s.resultWords_writes r _ (by simp) (startsGroup_iff.2 hr)⟩
    rw [if_pos hq, BitVec.toNat_ofNat, Nat.mod_eq_of_lt hq]

/-- Settles O22. -/
theorem extendedMultiplyAndDivide : Obligations.ExtendedMultiplyAndDivide := by
  intro s x y r
  refine ⟨fun hr => ⟨?_, fun q hq => ?_, fun v => ?_⟩, fun h0 => ?_⟩
  · rw [Nat.mul_comm]
    exact s.resultWords_writes r _ (by simp) (startsGroup_iff.2 hr)
  · refine execEdiv_divides (ws := s.readRegs q 2) (aligned_eq _ hq) (State.length_readRegs ..) ?_ hr
    exact toNat_append_word ..
  · refine execEdiv_divides (ws := [literal v, 0#32]) rfl rfl ?_ hr
    rw [toNat_append_word]
    simp only [List.getD_cons_zero, List.getD_cons_succ, literal, BitVec.toNat_setWidth, BitVec.toNat_ofNat]
    omega
  · have zero : ∀ k, unlessZero s (srcVal s x) k = takeFault .zeroDivide s.ip s.ip s := fun k => if_pos h0
    unfold divideRows
    simp only [List.forall_mem_cons, List.not_mem_nil, false_implies, implies_true, and_true]
    exact ⟨fun _ => zero _, fun _ => zero _, fun _ => zero _, fun _ => zero _, fun _ => zero _⟩

/-! ### Bit operations -/

theorem getLsbD_bitMask (p : Word) (k : Nat) : (bitMask p).getLsbD k = decide (k = p.toNat % 32) := by
  rw [show bitMask p = BitVec.twoPow 32 (p.toNat % 32) from rfl, BitVec.getLsbD_twoPow]
  have : p.toNat % 32 < 32 := Nat.mod_lt _ (by decide)
  simp only [this, decide_true, Bool.true_and]
  exact decide_eq_decide.2 eq_comm

theorem getLsbD_lowMask (n : Nat) {k : Nat} (hk : k < 32) : (lowMask n).getLsbD k = decide (k < n) := by
  unfold lowMask
  split
  case isTrue h =>
    have : (0xFFFFFFFF#32).getLsbD k = true := by
      rw [show 0xFFFFFFFF#32 = BitVec.allOnes 32 from rfl, BitVec.getLsbD_allOnes, decide_eq_true hk]
    rw [this, decide_eq_true (by omega)]
  case isFalse h => rw [BitVec.getLsbD_ofNat, decide_eq_true hk, Bool.true_and, Nat.testBit_two_pow_sub_one]

theorem getLsbD_mergeMask (mask new old : Word) {k : Nat} (hk : k < 32) :
    (mergeMask mask new old).getLsbD k = if mask.getLsbD k then new.getLsbD k else old.getLsbD k := by
  simp only [mergeMask, BitVec.getLsbD_or, BitVec.getLsbD_and, BitVec.getLsbD_not, hk, decide_true, Bool.true_and]
  cases mask.getLsbD k <;> simp

/-- The search for the highest set bit finds it (R257). -/
theorem highestBelow_eq_some {w : Word} {k : Nat} (hk : w.getLsbD k = true) : ∀ n, k < n →
    (∀ j, k < j → j < n → w.getLsbD j = false) → highestBelow w n = some k
  | n + 1, hn, above => by
    rw [highestBelow]
    by_cases e : k = n
    · rw [← e, hk, if_pos rfl]
    · rw [above n (by omega) (by omega), if_neg (by decide)]
      exact highestBelow_eq_some hk n (by omega) fun j h h' => above j h (by omega)

theorem highestBelow_eq_none {w : Word} : ∀ n, (∀ j < n, w.getLsbD j = false) → highestBelow w n = none
  | 0, _ => rfl
  | n + 1, h => by
    rw [highestBelow, h n (by omega), if_neg (by decide)]
    exact highestBelow_eq_none n fun j hj => h j (by omega)

/-- A search of the bits of `w`, which are those of `a` that equal `bit`. -/
theorem scanResult_search {a w : Word} {bit : Bool} (s : State) (r : Reg)
    (hw : ∀ k < 32, (w.getLsbD k = true ↔ a.getLsbD k = bit)) :
    (∀ k < 32, a.getLsbD k = bit → (∀ j, k < j → j < 32 → a.getLsbD j ≠ bit) →
      Gives (scanResult s (.reg r) w) (Writes s r [BitVec.ofNat 32 k] { s.ac with cc := 0b010 } 4#32)) ∧
    ((∀ k < 32, a.getLsbD k ≠ bit) →
      Gives (scanResult s (.reg r) w) (Writes s r [0xFFFFFFFF#32] { s.ac with cc := 0b000 } 4#32)) := by
  have clear : ∀ j < 32, a.getLsbD j ≠ bit → w.getLsbD j = false := fun j hj h =>
    Bool.eq_false_iff.2 fun e => h ((hw j hj).1 e)
  constructor
  · intro k hk h above
    rw [scanResult, highestBelow_eq_some ((hw k hk).2 h) 32 hk fun j h1 h2 => clear j h2 (above j h1 h2)]
    exact s.resultCc_writes r _ _
  · intro h
    rw [scanResult, highestBelow_eq_none 32 fun j hj => clear j hj (h j hj)]
    exact s.resultCc_writes r _ _

theorem sameByte_iff (a b : Word) (k : Nat) :
    sameByte a b k = true ↔ a.extractLsb' (8 * k) 8 = b.extractLsb' (8 * k) 8 := by
  rw [sameByte, beq_iff_eq]
  exact Iff.rfl

theorem exists_lt_four {p : Nat → Prop} : (∃ k < 4, p k) ↔ p 0 ∨ p 1 ∨ p 2 ∨ p 3 := by
  constructor
  · rintro ⟨k, hk, h⟩
    rcases (by omega : k = 0 ∨ k = 1 ∨ k = 2 ∨ k = 3) with rfl | rfl | rfl | rfl <;> simp [h]
  · rintro (h | h | h | h)
    exacts [⟨0, by decide, h⟩, ⟨1, by decide, h⟩, ⟨2, by decide, h⟩, ⟨3, by decide, h⟩]

/-- Two words have an equal byte in the same place (R261). -/
theorem anySameByte_iff (a b : Word) :
    (sameByte a b 0 || sameByte a b 1 || sameByte a b 2 || sameByte a b 3) = true ↔
      ∃ k < 4, a.extractLsb' (8 * k) 8 = b.extractLsb' (8 * k) 8 := by
  simp only [Bool.or_eq_true, or_assoc, sameByte_iff, exists_lt_four]

/-- Settles O23. -/
theorem bitOperations : Obligations.BitOperations := by
  intro s x y r a b d one code
  refine ⟨s.result_writes_eq r (BitVec.allOnes_xor).symm, ⟨_, fun k hk => ?_, s.result_writes r _⟩,
    ⟨_, fun ha k hk => ?_, s.result_writes r _⟩, ⟨_, fun k hk => getLsbD_mergeMask _ _ _ hk, s.result_writes r _⟩,
    fun h => ?_, fun h => ?_, s.resultOnlyCc_writes r _, scanResult_search s r fun _ _ => Iff.rfl,
    scanResult_search s r fun k hk => ?_⟩
  · rw [show s.carry = s.ac.cc.getLsbD 1 from rfl]
    cases s.ac.cc.getLsbD 1 <;>
      simp only [Bool.false_eq_true, if_true, if_false, BitVec.getLsbD_or, BitVec.getLsbD_and, BitVec.getLsbD_not, hk,
        getLsbD_bitMask] <;>
      by_cases e : k = a.toNat % 32 <;> simp [e, a, b]
  · rw [if_pos ha, BitVec.getLsbD_and, getLsbD_lowMask _ hk, BitVec.getLsbD_ushiftRight, Bool.and_comm]
    rfl
  · exact s.resultOnlyCc_writes_eq r (by rw [(anySameByte_iff a b).2 h]; rfl)
  · have none := mt (anySameByte_iff a b).1 fun ⟨k, hk, e⟩ => h k hk e
    exact s.resultOnlyCc_writes_eq r (by rw [Bool.eq_false_iff.2 none]; rfl)
  · simp [hk, a]

/-! ### Compares -/

/-- The order of two ordinals as the condition code says it (R270). -/
theorem compareOrd_eq (a b : Word) : compareOrd a b =
    if decide (a.toNat < b.toNat) then 0b100#3 else if decide (b.toNat < a.toNat) then 0b001#3 else 0b010#3 := by
  rw [compareOrd, orderCc]
  have e : a = b ↔ a.toNat = b.toNat := BitVec.toNat_inj.symm
  simp only [decide_eq_true_eq, e]
  split <;> grind

/-- The order of two integers. -/
theorem compareInt_eq (a b : Word) : compareInt a b =
    if decide (a.toInt < b.toInt) then 0b100#3 else if decide (b.toInt < a.toInt) then 0b001#3 else 0b010#3 := by
  rw [compareInt, orderCc]
  have e : a = b ↔ a.toInt = b.toInt := BitVec.toInt_inj.symm
  simp only [decide_eq_true_eq, e]
  split <;> grind

/-- Settles O24. -/
theorem comparesSetTheConditionCode : Obligations.ComparesSetTheConditionCode := by
  intro s x y r a b order ord int only both range
  have ho := compareOrd_eq a b
  have hi := compareInt_eq a b
  exact ⟨s.resultOnlyCc_writes_eq r ho, s.resultOnlyCc_writes_eq r hi, s.resultOnlyCc_writes r _,
    s.resultOnlyCc_writes r _, s.resultCc_writes_eq r rfl ho, s.resultCc_writes_eq r rfl hi,
    s.resultCc_writes_eq r (BitVec.sub_eq_add_neg ..).symm ho, s.resultCc_writes_eq r (BitVec.sub_eq_add_neg ..).symm hi⟩

end Sys2Proof.Machine
end

section
/-! SUPPORT. Branches, tests and conditional faults: their words, their targets and what they leave (R280 to R338). -/

namespace Sys2Proof.Machine

/-! ### Words of the CTRL and COBR formats -/

/-- A CTRL word with a target (R136). -/
theorem decode_ctrlTarget {op : Nat} {f : BitVec 22 → Instr} (hlow : op < 0x20)
    (h : ctrlTable.lookup op = some (.targ f)) : DecodesCtrl op f := by
  intro w rest hop hbits
  change decodeWord w rest = _
  have hop' : opcodeOf w = op := hop
  rw [decodeWord, if_pos (by omega), decodeCtrl, hop', h]
  exact if_neg (not_not.2 hbits)

/-- A CTRL word without an operand. -/
theorem decode_ctrlNone {op : Nat} {i : Instr} (hlow : op < 0x20) (h : ctrlTable.lookup op = some (.none i)) {w : Word}
    (rest : List Word) (hop : (w.extractLsb' 24 8).toNat = op) (hbits : w.extractLsb' 0 2 = 0#2) :
    decode (w :: rest) = .ok (i, rest) := by
  change decodeWord w rest = _
  have hop' : opcodeOf w = op := hop
  rw [decodeWord, if_pos (by omega), decodeCtrl, hop', h]
  exact if_neg (not_not.2 hbits)

/-- A COBR word that compares and branches (R135, R142). -/
theorem decode_cobrBranch {op : Nat} {f : Src → Reg → BitVec 11 → Instr} (hlow : 0x20 ≤ op) (hhigh : op < 0x40)
    (h : cobrTable.lookup op = some (.branch f)) : DecodesCobr op f := by
  intro w rest hop hbits
  change decodeWord w rest = _
  have hop' : opcodeOf w = op := hop
  rw [decodeWord, if_neg (by omega), if_pos (by omega), decodeCobr, hop', h]
  exact if_neg (not_not.2 hbits)

/-! ### Targets and conditions -/

/-- A displacement in words is four times as many bytes. -/
theorem toInt_append_two {n : Nat} (d : BitVec n) : (d ++ 0#2).toInt = 4 * d.toInt := by
  have hd := d.isLt
  rw [BitVec.toInt_eq_toNat_cond, BitVec.toInt_eq_toNat_cond, BitVec.toNat_append, Nat.shiftLeft_eq]
  simp only [BitVec.toNat_ofNat, Nat.zero_mod, Nat.or_zero, Nat.pow_add]
  generalize 2 ^ n = p at hd ⊢
  split <;> split <;> push_cast <;> omega

theorem ctrlTarget_eq (a : Word) (d : BitVec 22) : ctrlTarget a d = a + BitVec.ofInt 32 (4 * d.toInt) := by
  rw [ctrlTarget, BitVec.signExtend, toInt_append_two]

theorem cobrTarget_eq (a : Word) (d : BitVec 11) : cobrTarget a d = a + BitVec.ofInt 32 (4 * d.toInt) := by
  rw [cobrTarget, BitVec.signExtend, toInt_append_two]

/-- The model's test of a condition is the table of R290. -/
theorem condHolds_eq : ∀ m cc, condHolds m cc = conditionTrue m cc := by decide

/-! ### What a branch leaves -/

theorem goes_branch (s : State) (target : Word) (ac : ArithControls) :
    Goes s target evBranch ac (({ s with ac := ac } : State).branch target) :=
  ⟨rfl, rfl, fun _ => rfl, rfl, rfl, fun _ => rfl, rfl, by constructor <;> rfl⟩

theorem goes_advance (s : State) (ac : ArithControls) :
    Goes s (s.ip + 4#32) 0#8 ac (({ s with ac := ac } : State).advance 4#32) :=
  ⟨rfl, rfl, fun _ => rfl, rfl, by simp, fun _ => rfl, rfl, by constructor <;> rfl⟩

theorem branchIf_taken (s : State) (target : Word) (ac : ArithControls) {b : Bool} (h : b = true) :
    Gives (.next (({ s with ac := ac } : State).branchIf b target)) (Goes s target evBranch ac) :=
  ⟨_, by rw [State.branchIf, if_pos h], goes_branch s target ac⟩

theorem branchIf_not_taken (s : State) (target : Word) (ac : ArithControls) {b : Bool} (h : b = false) :
    Gives (.next (({ s with ac := ac } : State).branchIf b target)) (Goes s (s.ip + 4#32) 0#8 ac) :=
  ⟨_, by rw [State.branchIf, h]; rfl, goes_advance s ac⟩

/-- Settles O25. -/
theorem branchesAndLinks : Obligations.BranchesAndLinks := by
  intro s d m r
  have link : ∀ (q : Reg) (len target : Word),
      let t : State := { (s.setReg q (s.ip + len)).event evCall with ip := target }
      WritesGroup s q [s.ip + len] t ∧ t.ip = target ∧ t.ac = s.ac ∧ t.fps = s.fps ∧
        (∀ a, t.readByte a = s.readByte a) ∧ t.traced = s.traced ||| evCall ∧ SameSpecial s t := fun q len target => by
    have w := writes_of_setReg_ac (s := s) q (s.ip + len) 4#32
    exact ⟨⟨w.group.written, w.group.others⟩, rfl, w.ac, w.fps, w.bytes, congrArg (· ||| evCall) w.traced,
      by cases w.special; constructor <;> assumption⟩
  refine ⟨decode_ctrlTarget (by decide) rfl, ⟨_, rfl, ?_⟩, ⟨_, rfl, goes_branch s _ s.ac⟩, ⟨_, rfl, ?_⟩,
    ⟨_, rfl, link r (memLength m) _⟩⟩
  · rw [ctrlTarget_eq]
    exact goes_branch s _ s.ac
  · rw [ctrlTarget_eq]
    exact link 30#5 4#32 _

/-! ### Branch, test and fault if -/

/-- Settles O26. -/
theorem conditionalBranches : Obligations.ConditionalBranches := by
  intro row h
  have hexec : ∀ d s, exec (row.2.1 d) s = branchOn s row.2.2 d := by fin_cases h <;> intros <;> rfl
  refine ⟨?_, fun s d => ?_⟩
  · fin_cases h <;> exact decode_ctrlTarget (by decide) rfl
  · rw [hexec, branchOn, condHolds_eq, ctrlTarget_eq]
    exact ⟨branchIf_taken s _ s.ac, branchIf_not_taken s _ s.ac⟩

/-- Settles O29. -/
theorem conditionTests : Obligations.ConditionTests := by
  intro row h
  refine ⟨fun w rest hop hbits => ?_, fun s r => ?_⟩
  · rw [decode_testIf h rest hop]
    exact if_neg (not_not.2 hbits)
  · rw [exec_testIf h, ← condHolds_eq]
    exact testOn_writes s row.2.2 r

/-- Settles O30. -/
theorem conditionalFaults : Obligations.ConditionalFaults := by
  intro row h
  have hexec : ∀ s, exec row.2.1 s = faultOn s row.2.2 := by fin_cases h <;> intros <;> rfl
  refine ⟨fun w rest => ?_, fun s => ?_⟩
  · fin_cases h <;> exact decode_ctrlNone (by decide) rfl rest
  · rw [hexec, faultOn, condHolds_eq]
    refine ⟨fun hc => ⟨s.advance 4#32, ?_, goes_advance s s.ac⟩, fun hc => ⟨s.advance 4#32, goes_advance s s.ac, ?_⟩⟩
    · rw [hc]; rfl
    · rw [if_pos hc]; rfl

/-! ### Compare and branch -/

/-- The mask `m` selects the orders of two values in which `taken` says yes. -/
def SelectsOrder {α : Type} [LinearOrder α] (m : BitVec 3) (taken : α → α → Bool) : Prop :=
  ∀ p q, (p < q → taken p q = condHolds m 0b100#3) ∧ (p = q → taken p q = condHolds m 0b010#3) ∧
    (q < p → taken p q = condHolds m 0b001#3)

/-- Compare, write the condition code, and branch when the relation holds (R300). -/
theorem compareBranch_goes {α : Type} [LinearOrder α] (key : Word → α) {m : BitVec 3} {taken : α → α → Bool}
    (hm : SelectsOrder m taken) {compare : Word → Word → BitVec 3}
    (hcompare : ∀ a b, compare a b =
      if decide (key a < key b) then 0b100#3 else if decide (key b < key a) then 0b001#3 else 0b010#3)
    (s : State) (x : Src) (y : Reg) (d : BitVec 11) :
    let a := srcVal s x
    let b := s.readReg y
    let c := if decide (key a < key b) then 0b100#3 else if decide (key b < key a) then 0b001#3 else 0b010#3
    if taken (key a) (key b) then
      Gives (compareBranch s compare m x y d)
        (Goes s (s.ip + BitVec.ofInt 32 (4 * d.toInt)) evBranch { s.ac with cc := c })
    else Gives (compareBranch s compare m x y d) (Goes s (s.ip + 4#32) 0#8 { s.ac with cc := c }) := by
  intro a b c
  have hcc : compare a b = c := hcompare a b
  have hholds : condHolds m c = taken (key a) (key b) := by
    obtain ⟨lt, eq, gt⟩ := hm (key a) (key b)
    rcases lt_trichotomy (key a) (key b) with h | h | h
    · simp only [c, h, decide_true, if_true, lt h]
    · rw [eq h]
      simp only [c, h, lt_irrefl, decide_false, Bool.false_eq_true, if_false]
    · simp only [c, h, not_lt_of_gt h, decide_true, decide_false, Bool.false_eq_true, if_true, if_false, gt h]
  have run : compareBranch s compare m x y d = .next (({ s with ac := { s.ac with cc := c } } : State).branchIf
      (taken (key a) (key b)) (s.ip + BitVec.ofInt 32 (4 * d.toInt))) := by
    rw [← hholds, ← hcc, ← cobrTarget_eq]; rfl
  rw [run]
  split
  case isTrue h => exact branchIf_taken s _ _ h
  case isFalse h => exact branchIf_not_taken s _ _ (Bool.eq_false_iff.2 h)

theorem ordinalBranchRows_select : ∀ row ∈ ordinalBranchRows, ∃ m, SelectsOrder m row.2.2 ∧
    ∀ x y d s, exec (row.2.1 x y d) s = compareBranch s compareOrd m x y d := by
  unfold ordinalBranchRows SelectsOrder
  simp only [List.forall_mem_cons, List.not_mem_nil, false_implies, implies_true, and_true]
  refine ⟨⟨1, ?_, fun _ _ _ _ => rfl⟩, ⟨2, ?_, fun _ _ _ _ => rfl⟩, ⟨3, ?_, fun _ _ _ _ => rfl⟩,
    ⟨4, ?_, fun _ _ _ _ => rfl⟩, ⟨5, ?_, fun _ _ _ _ => rfl⟩, ⟨6, ?_, fun _ _ _ _ => rfl⟩⟩ <;>
  simp [condHolds] <;> omega

theorem integerBranchRows_select : ∀ row ∈ integerBranchRows, ∃ m, SelectsOrder m row.2.2 ∧
    ∀ x y d s, exec (row.2.1 x y d) s = compareBranch s compareInt m x y d := by
  unfold integerBranchRows SelectsOrder
  simp only [List.forall_mem_cons, List.not_mem_nil, false_implies, implies_true, and_true]
  refine ⟨⟨0, ?_, fun _ _ _ _ => rfl⟩, ⟨1, ?_, fun _ _ _ _ => rfl⟩, ⟨2, ?_, fun _ _ _ _ => rfl⟩,
    ⟨3, ?_, fun _ _ _ _ => rfl⟩, ⟨4, ?_, fun _ _ _ _ => rfl⟩, ⟨5, ?_, fun _ _ _ _ => rfl⟩,
    ⟨6, ?_, fun _ _ _ _ => rfl⟩, ⟨7, ?_, fun _ _ _ _ => rfl⟩⟩ <;>
  simp [condHolds] <;> omega

/-- A branch on a bit: the condition code is one of two (R315, R316). -/
theorem bitBranch_goes (s : State) (set : Bool) (x : Src) (y : Reg) (d : BitVec 11) {taken : Bool}
    (h : ((s.readReg y).getLsbD ((srcVal s x).toNat % 32) == set) = taken) :
    ∃ c ∈ [0b000#3, 0b010#3],
      if taken then Gives (bitBranch s set x y d)
        (Goes s (s.ip + BitVec.ofInt 32 (4 * d.toInt)) evBranch { s.ac with cc := c })
      else Gives (bitBranch s set x y d) (Goes s (s.ip + 4#32) 0#8 { s.ac with cc := c }) := by
  have two : ∀ b : Bool, (0#1 ++ BitVec.ofBool b ++ 0#1 : BitVec 3) ∈ [0b000#3, 0b010#3] := by decide
  refine ⟨_, two (Config.freeBit s.serial 105), ?_⟩
  rw [bitBranch, h, cobrTarget_eq]
  split
  case isTrue h => exact branchIf_taken s _ _ h
  case isFalse h => exact branchIf_not_taken s _ _ (Bool.eq_false_iff.2 h)

/-- Settles O27. -/
theorem comparesAndBranches : Obligations.ComparesAndBranches := by
  refine ⟨fun row h => ⟨?_, fun s x y d => ?_⟩, fun row h => ⟨?_, fun s x y d => ?_⟩,
    fun s x y d => ⟨bitBranch_goes s false x y d (by simp), bitBranch_goes s true x y d (by simp)⟩⟩
  · fin_cases h <;> exact decode_cobrBranch (by decide) (by decide) rfl
  · obtain ⟨m, hm, hexec⟩ := ordinalBranchRows_select row h
    rw [hexec]
    exact compareBranch_goes BitVec.toNat hm compareOrd_eq s x y d
  · fin_cases h <;> exact decode_cobrBranch (by decide) (by decide) rfl
  · obtain ⟨m, hm, hexec⟩ := integerBranchRows_select row h
    rw [hexec]
    exact compareBranch_goes BitVec.toInt hm compareInt_eq s x y d

end Sys2Proof.Machine
end

section
/-! SUPPORT. One step: the decoder does not look at words after the instruction, and what runs when (R27, R500, R560). -/

namespace Sys2Proof.Machine

/-! ### The decoder looks at no later word (R134) -/

theorem unindexed_more {w : Word} {m m' : MemOp} {more rest : List Word} (h : unindexed w (.ok (m, more)) = .ok (m', rest))
    (l : List Word) : unindexed w (.ok (m, l)) = .ok (m', l) := by
  unfold unindexed at h ⊢
  cases hs : toScale (w.extractLsb' 7 3) with
  | some sc => simp only [hs] at h ⊢; cases h; rfl
  | none =>
    simp only [hs] at h ⊢
    split at h
    case isTrue => cases h
    case isFalse hf => cases h; exact if_neg hf

theorem decodeMemOp_more {w : Word} {more rest : List Word} {m : MemOp} (hop : 0x80 ≤ opcodeOf w)
    (hno : hasDisplacement w = false) (h : decodeMemOp w more = .ok (m, rest)) (l : List Word) :
    decodeMemOp w l = .ok (m, l) := by
  unfold decodeMemOp at h ⊢
  split at h
  case isTrue hmema =>
    rw [if_pos hmema]
    split at h
    case isTrue hd => cases h; exact if_pos hd
    case isFalse hd => cases h; exact if_neg hd
  case isFalse hmemb =>
    have hform : bitAt w 12 = true := by simpa using hmemb
    have absurdMode : ∀ mode : Nat, (w.extractLsb' 10 4).toNat = mode → (mode == 5 || decide (12 ≤ mode)) = true →
        False := fun mode hm h5 => by
      rw [hasDisplacement_memb hop hform hm, h5] at hno
      exact absurd hno (by decide)
    rw [if_neg hmemb]
    split at h
    case isTrue => cases h
    case isFalse hsfr =>
      rw [if_neg hsfr]
      split at h
      case h_1 => exact unindexed_more h l
      case h_3 =>
        unfold indexed at h ⊢
        split at h
        case h_1 => cases h; rfl
        case h_2 => cases h
      case h_8 => cases h
      all_goals exact (absurdMode _ (by assumption) (by decide)).elim

theorem decode_more {w : Word} {more rest : List Word} {i : Instr} (hno : hasDisplacement w = false)
    (h : decode (w :: more) = .ok (i, rest)) (l : List Word) : decode (w :: l) = .ok (i, l) := by
  change decodeWord w more = _ at h
  change decodeWord w l = _
  unfold decodeWord at h ⊢
  split at h
  case isTrue hc =>
    rw [if_pos hc]
    unfold decodeCtrl at h ⊢
    cases hrow : ctrlTable.lookup (opcodeOf w) with
    | none => rw [hrow] at h; cases h
    | some form =>
      simp only [hrow] at h ⊢
      split at h
      case isTrue => cases h
      case isFalse hb => rw [if_neg hb]; cases form <;> cases h <;> rfl
  case isFalse hc =>
    rw [if_neg hc]
    split at h
    case isTrue hc =>
      rw [if_pos hc]
      unfold decodeCobr at h ⊢
      cases hrow : cobrTable.lookup (opcodeOf w) with
      | none => rw [hrow] at h; cases h
      | some form =>
        simp only [hrow] at h ⊢
        split at h
        case isTrue => cases h
        case isFalse hb => rw [if_neg hb]; cases form <;> cases h <;> rfl
    case isFalse hc =>
      rw [if_neg hc]
      split at h
      case isTrue hc =>
        rw [if_pos hc]
        unfold decodeReg at h ⊢
        cases hrow : regTable.lookup (regOpcodeOf w) with
        | none => rw [hrow] at h; cases h
        | some form =>
          simp only [hrow] at h ⊢
          split at h
          case isTrue => cases h
          case isFalse hb => rw [if_neg hb]; cases h; rfl
      case isFalse hc =>
        rw [if_neg hc]
        obtain ⟨m, hm⟩ := decodeMem_eq_ok h
        have hm' := decodeMemOp_more (by omega) hno hm l
        unfold decodeMem at h ⊢
        cases hrow : memTable.lookup (opcodeOf w) with
        | none => rw [hrow] at h; cases h
        | some form =>
          simp only [hrow, hm, hm'] at h ⊢
          cases form <;> cases h <;> rfl

/-! ### The step -/

variable {s : State}

/-- What the decoder reads at the ip is what is fetched. -/
theorem State.fetch_ok {w d : Word} {i : Instr} {rest : List Word} (hw : s.fetchWord s.ip = .ok w)
    (hd : hasDisplacement w = true → s.fetchWord (s.ip + 4#32) = .ok d) (h : decode [w, d] = .ok (i, rest)) :
    s.fetch = .ok i := by
  unfold State.fetch
  rw [hw, Eff.bind_ok]
  split
  case isTrue hdisp => rw [hd hdisp, Eff.bind_ok, h]; rfl
  case isFalse hdisp => rw [decode_more (Bool.eq_false_iff.2 hdisp) h []]; rfl

theorem runInstruction_ok {i : Instr} (h : s.fetch = .ok i) : runInstruction s = s.finish (exec i s.begin) := by
  rw [runInstruction, h]

/-- A processor that is not stopped and not idle executes. -/
theorem step_executing (hr : s.restarted = false) (hs : s.proc ≠ .stopped) (hi : s.proc ≠ .idle) :
    step s = stepExecuting s := by
  rw [step, hr, if_neg (by decide)]
  cases hp : s.proc with
  | stopped => exact absurd hp hs
  | idle => exact absurd hp hi
  | executing => rfl
  | interrupted => rfl
  | idleInterrupted => rfl

theorem step_idle (hr : s.restarted = false) (hi : s.proc = .idle) : step s = s.idleStep := by
  rw [step, hr, hi]; rfl

theorem idleStep_nothing (he : s.env = []) : s.idleStep = .next s.idles := by
  rw [State.idleStep, he]

theorem idleStep_quiet {more : List EnvEvent} (he : s.env = .quiet :: more) :
    s.idleStep = .next (s.withEnv more).idles := by
  rw [State.idleStep, he]

/-- A processor that is not stopped takes an event of the environment that is due, executing or idle. -/
theorem step_interrupt {v : BitVec 8} {more : List EnvEvent} (hr : s.restarted = false) (hs : s.proc ≠ .stopped)
    (he : s.env = .interrupt v :: more) : step s = (s.withEnv more).takeInterrupt v := by
  by_cases hi : s.proc = .idle
  · rw [step_idle hr hi, State.idleStep, he]
  · rw [step_executing hr hs hi, stepExecuting, he]

theorem step_extWrite {a : Word} {b : Byte} {more : List EnvEvent} (hr : s.restarted = false) (hs : s.proc ≠ .stopped)
    (he : s.env = .extWrite a b :: more) : step s = .next ((s.withEnv more).externalWrite a b) := by
  by_cases hi : s.proc = .idle
  · rw [step_idle hr hi, State.idleStep, he]
  · rw [step_executing hr hs hi, stepExecuting, he]

/-- With tracing off, or no traced event, an instruction ends without a report (R560). -/
theorem State.finish_quiet {t : State} (h : t.te = false ∨ t.traced &&& traceModes s.tctl = 0#8) :
    s.finish (.next t) = .next { t with traced := 0#8, serial := t.serial + 1 } := by
  have hq : ¬ (t.te = true ∧ t.traced &&& traceModes s.tctl ≠ 0) := fun ⟨h1, h2⟩ =>
    h.elim (fun e => by rw [e] at h1; cases h1) h2
  simp only [State.finish, traceFinish, if_neg hq]
  rfl

/-- Settles O5. -/
theorem stepRunsDecodedInstruction : Obligations.StepRunsDecodedInstruction := by
  refine ⟨fun s w d i rest hr hs hi hw hd hdec => ?_, fun s => ⟨fun hr => ?_, fun hr hp => ?_, fun hr hi => ?_⟩⟩
  · have run : s.env = [] → step s = s.finish (exec i s.begin) := fun he => by
      rw [step_executing hr hs hi, stepExecuting, he]
      exact runInstruction_ok (State.fetch_ok hw hd hdec)
    refine ⟨run, fun more he => ?_, fun t he hx hq => ?_⟩
    · rw [step_executing hr hs hi, stepExecuting, he]
      exact runInstruction_ok (s := s.withEnv more) (State.fetch_ok (s := s.withEnv more) hw hd hdec)
    · rw [run he, hx, State.finish_quiet hq]
  · rw [step, if_pos hr]
  · rw [step, hr, hp]; rfl
  · rw [step_idle hr hi]
    exact ⟨idleStep_nothing, fun more => idleStep_quiet, fun v more he => by rw [State.idleStep, he]⟩

end Sys2Proof.Machine
end

section
/-! SUPPORT. Register sets written to their frames, new frames and returns (R22, R340, R344, R346). -/

namespace Sys2Proof.Machine

variable {s t u : State}

/-! ### Slots stored and read back -/

/-- A free word stored in RAM reads as its value. -/
theorem State.readWord_writeFreeWord {a : Word} (n i : Nat) (h : s.ramAt a 4) :
    (s.writeFreeWord a n i).readWord a = Config.freeWord n i := by
  have h0 := h 0 (by decide)
  have h1 : kindAt s.memMap (a + 1).toNat = .ram := h 1 (by decide)
  have h2 : kindAt s.memMap (a + 2).toNat = .ram := h 2 (by decide)
  have h3 : kindAt s.memMap (a + 3).toNat = .ram := h 3 (by decide)
  rw [BitVec.add_zero] at h0
  have m0 := State.writeFreeByte_memStep a ⟨n, i, 0⟩ s
  have m1 := m0.trans (State.writeFreeByte_memStep (a + 1) ⟨n, i, 1⟩ _)
  have m2 := m1.trans (State.writeFreeByte_memStep (a + 2) ⟨n, i, 2⟩ _)
  rw [← byteOf_wordOfBytes (Config.freeWord n i), State.readWord, State.writeFreeWord]
  congr 1
  · rw [State.readByte_writeFreeByte_ne _ (by bv_omega), State.readByte_writeFreeByte_ne _ (by bv_omega),
      State.readByte_writeFreeByte_ne _ (by bv_omega), State.readByte_writeFreeByte, if_pos ⟨rfl, h0⟩]
    rfl
  · rw [State.readByte_writeFreeByte_ne _ (by bv_omega), State.readByte_writeFreeByte_ne _ (by bv_omega),
      State.readByte_writeFreeByte, if_pos ⟨rfl, by rwa [m0.memMap]⟩]
    rfl
  · rw [State.readByte_writeFreeByte_ne _ (by bv_omega), State.readByte_writeFreeByte,
      if_pos ⟨rfl, by rwa [m1.memMap]⟩]
    rfl
  · rw [State.readByte_writeFreeByte, if_pos ⟨rfl, by rwa [m2.memMap]⟩]
    rfl

theorem State.readWord_writeSlot {a : Word} (x : Slot) (h : s.ramAt a 4) : (s.writeSlot a x).readWord a = x.val := by
  cases x with
  | word w => exact State.readWord_writeWord_ram w h
  | free n i => exact State.readWord_writeFreeWord n i h

/-- Slots stored in RAM read back as their values. -/
theorem State.readWords_writeSlots (xs : List Slot) : ∀ (a : Word) (s : State), xs.length ≤ 2 ^ 30 →
    s.ramAt a (4 * xs.length) → (s.writeSlots a xs).readWords a xs.length = xs.map Slot.val := by
  induction xs with
  | nil => exact fun _ _ _ _ => rfl
  | cons x xs ih =>
    intro a s hl hr
    simp only [List.length_cons] at hl hr ⊢
    have ha : (a : Word) + 4 = a + BitVec.ofNat 32 4 := rfl
    rw [State.writeSlots, State.readWords, List.map_cons, ih (a + 4) _ (by omega)
      (ha ▸ (hr.part 4 (4 * xs.length) (by omega)).congr (State.writeSlot_memStep a x s).memMap)]
    congr 1
    rw [(State.writeSlots_sameOutside xs (a + 4) _).readWord (fun i hi => by bv_omega)]
    have h0 := hr.part 0 4 (by omega)
    rw [BitVec.add_zero] at h0
    exact State.readWord_writeSlot x h0

/-- A flushed frame in RAM holds its registers (R22). -/
theorem State.readWord_flushFrame {f : CachedFrame} (h : s.ramAt f.frame 64) (i : Fin 16) :
    (s.flushFrame f).readWord (f.frame + BitVec.ofNat 32 (4 * i.val)) = f.regs[i].val := by
  have hw := State.readWords_writeSlots f.regs.toList f.frame s (by simp) (by simpa using h)
  rw [State.readWords_eq_map] at hw
  have hi := congrArg (fun l => l[i.val]?) hw
  simpa [State.flushFrame] using hi

/-! ### Frames that leave the chip -/

/-- With `n` sets kept, what is written is the rest. -/
theorem State.flushBeyond_eq_drop (l : List CachedFrame) : ∀ (n : Nat) (s : State),
    s.flushBeyond n l = s.flushBeyond 0 (l.drop n) := by
  induction l with
  | nil => exact fun n s => by simp [State.flushBeyond]
  | cons f l ih =>
    intro n s
    cases n with
    | zero => rfl
    | succ n => exact ih n s

/-- Two frames have no byte in common. -/
def FramesApart (f g : CachedFrame) : Prop := 64 ≤ (f.frame - g.frame).toNat ∧ 64 ≤ (g.frame - f.frame).toNat

/-- Sets flushed to frames that do not overlap are all in memory. -/
theorem State.readWord_flushBeyond (l : List CachedFrame) : ∀ s : State, l.Pairwise FramesApart →
    ∀ f ∈ l, s.ramAt f.frame 64 → ∀ i : Fin 16,
      (s.flushBeyond 0 l).readWord (f.frame + BitVec.ofNat 32 (4 * i.val)) = f.regs[i].val := by
  induction l with
  | nil => simp
  | cons g l ih =>
    intro s hp f hf hr i
    rw [List.pairwise_cons] at hp
    obtain ⟨hg, hp⟩ := hp
    have st := State.flushBeyond_memStep l 0 s
    rw [State.flushBeyond]
    rcases List.mem_cons.1 hf with rfl | hf
    · exact State.readWord_flushFrame (hr.congr st.memMap) i
    · obtain ⟨h1, h2⟩ := hg f hf
      rw [(State.flushFrame_sameOutside g _).readWord (fun j hj => by have := i.isLt; bv_omega)]
      exact ih s hp f hf hr i

theorem length_flushed (h : s.cached.length ≤ cacheDepth) : s.flushed.length ≤ 1 := by
  simp only [State.flushed, cacheDepth, List.length_drop] at *
  omega

theorem pairwise_of_short {α : Type} {r : α → α → Prop} {l : List α} (h : l.length ≤ 1) : l.Pairwise r := by
  match l, h with
  | [], _ => exact List.Pairwise.nil
  | [a], _ => exact List.pairwise_singleton r a

/-! ### Entering a frame -/

/-- Entering a frame writes the flushed sets and nothing else. -/
theorem enterFrame_readByte (a b c : Word) (s : State) (x : Word) :
    (s.enterFrame a b c).readByte x = (s.flushBeyond 0 s.flushed).readByte x := by
  have e : s.flushBeyond 0 s.flushed =
      s.flushBeyond cacheDepth ({ frame := s.frameBase, regs := s.locals.set 2 (.word a) } :: s.cached) := by
    rw [State.flushBeyond_eq_drop _ cacheDepth]
    rfl
  rw [e]
  rfl

theorem flushed_congr (h : t.cached = s.cached) : t.flushed = s.flushed := by rw [State.flushed, h, State.flushed]

/-- A frame entered after some stores: bytes outside the flushed frames are as the stores left them. -/
theorem enterFrame_outside (h : s.MemStep u) (a b c : Word) {x : Word} (hx : ∀ f ∈ s.flushed, 64 ≤ (x - f.frame).toNat) :
    (u.enterFrame a b c).readByte x = u.readByte x := by
  rw [enterFrame_readByte, flushed_congr h.cached]
  exact State.flushBeyond_sameOutside _ 0 u x hx

/-- The same for a word that has no byte in a flushed frame. -/
theorem enterFrame_readWord (h : s.MemStep u) (a b c : Word) {x : Word}
    (hx : ∀ f ∈ s.flushed, ∀ i < 4, 64 ≤ (x + BitVec.ofNat 32 i - f.frame).toNat) :
    (u.enterFrame a b c).readWord x = u.readWord x :=
  State.readWord_congr_at fun i hi => enterFrame_outside h a b c fun f hf => hx f hf i hi

/-- If no register set was free, the oldest is in its frame (R22). -/
theorem enterFrame_flushed (h : s.MemStep u) (hc : s.cached.length ≤ cacheDepth) (a b c : Word) :
    Flushed s (u.enterFrame a b c) := by
  intro f hf hr i
  rw [State.readWord_congr (enterFrame_readByte a b c u), flushed_congr h.cached]
  exact State.readWord_flushBeyond _ u (pairwise_of_short (length_flushed hc)) f hf (hr.congr h.memMap) i

/-- What entering a frame keeps. -/
theorem enterFrame_keeps (a b c : Word) (s : State) :
    (s.enterFrame a b c).pctl = s.pctl ∧ (s.enterFrame a b c).tctl = s.tctl ∧ (s.enterFrame a b c).proc = s.proc ∧
      (s.enterFrame a b c).traced = s.traced ∧ (s.enterFrame a b c).ac = s.ac ∧
      SameSpecial s { s.enterFrame a b c with cached := s.cached } := by
  obtain ⟨u, hu, -, e⟩ := State.enterFrame_cases a b c s
  rw [e]
  have k := hu.sameSpecial
  exact ⟨hu.pctl, hu.tctl, hu.proc, hu.traced, hu.ac, rfl, k.pctl, k.tctl, k.proc, k.procControls, k.segTable, k.prcb,
    k.dispatchPort, k.intTable, k.intStack, k.region3, k.sysProcTable, k.faultTable, k.icr, k.bp0, k.bp1, k.memMap,
    k.restarted, k.env, k.serial⟩

theorem globals_contents (h : t.globals = s.globals.set 15 base) {q : Reg} (hg : isGlobal q = true) (hq : q ≠ 31#5) :
    t.contents q = s.contents q := by
  have hne : bankIndex q ≠ 15 := fun e => bankIndex_ne hq (by rw [hg]; rfl) e
  simp only [State.contents, hg, if_true, h, Fin.getElem_fin, Vector.getElem_set]
  rw [if_neg fun e => hne (Fin.ext e.symm)]

/-- A frame entered after some stores is the new frame of the claims. -/
theorem enterFrame_entered (h : s.MemStep u) (a b c : Word) : Entered s a b c (u.enterFrame a b c) := by
  obtain ⟨v, hv, -, e⟩ := State.enterFrame_cases a b c u
  rw [e, h.frameBase, h.locals, h.cached, h.serial, h.globals]
  refine ⟨rfl, rfl, ?_, ?_, ?_, fun q hg hq => globals_contents rfl hg hq, (h.trans hv).fps, (h.trans hv).ac⟩
  · simp [State.contents, isGlobal, bankIndex]
  · simp [State.contents, isGlobal, bankIndex, State.localReg, newLocals, Slot.val]
  · simp [State.contents, isGlobal, bankIndex, State.localReg, newLocals, Slot.val]

/-- What `Entered` says depends on the registers, the sets on the chip, and AC. -/
theorem Entered.congr {a b c : Word} (h : Entered s a b c t) (hc : u.cached = t.cached) (hg : u.globals = t.globals)
    (hl : u.locals = t.locals) (hf : u.fps = t.fps) (ha : u.ac = t.ac) : Entered s a b c u := by
  have k := State.contents_congr hg hl
  exact ⟨hc ▸ h.caller, hc ▸ h.older, (k _).trans h.fp, (k _).trans h.pfp, (k _).trans h.sp,
    fun q h1 h2 => (k q).trans (h.globals q h1 h2), hf.trans h.fps, ha.trans h.ac⟩

/-! ### Calls -/

/-- R340: what `do_call` leaves. -/
theorem State.doCall_enters (s : State) (target base status len : Word) :
    Entered s (s.ip + len) base (s.frameBase ||| status) (s.doCall target base status len) ∧
      (s.doCall target base status len).ip = target &&& 0xFFFFFFFC#32 ∧
      (s.doCall target base status len).traced = s.traced ||| evCall ∧
      SameSpecial s { s.doCall target base status len with cached := s.cached } ∧
      (s.cached.length ≤ cacheDepth → Flushed s (s.doCall target base status len)) ∧
      ∀ x, (∀ f ∈ s.flushed, 64 ≤ (x - f.frame).toNat) → (s.doCall target base status len).readByte x = s.readByte x := by
  obtain ⟨-, -, -, htr, -, hsp⟩ := enterFrame_keeps (s.ip + len) base (s.frameBase ||| status) s
  refine ⟨(enterFrame_entered (.refl s) _ _ _).congr rfl rfl rfl rfl rfl, rfl, congrArg (· ||| evCall) htr, ?_,
    fun hc => enterFrame_flushed (.refl s) hc (s.ip + len) base (s.frameBase ||| status),
    fun x hx => enterFrame_outside (.refl s) (s.ip + len) base (s.frameBase ||| status) hx⟩
  cases hsp
  constructor <;> assumption

/-- Settles O31. -/
theorem callsEnterNewFrames : Obligations.CallsEnterNewFrames := by
  intro s d m
  have e : s.frameBase ||| 0#32 = s.contents 31#5 &&& 0xFFFFFFC0#32 := BitVec.or_zero
  refine ⟨⟨_, rfl, ?_⟩, ⟨_, rfl, ?_⟩⟩
  · have h := s.doCall_enters (ctrlTarget s.ip d) (roundUp64 s.sp) 0#32 4#32
    rw [e, ctrlTarget_eq] at h
    rw [ctrlTarget_eq]
    exact h
  · have h := s.doCall_enters (effectiveAddress s m) (roundUp64 s.sp) 0#32 (memLength m)
    rw [e] at h
    exact h

end Sys2Proof.Machine
end

section
/-! SUPPORT. Calls through the system procedure table, returns and `flushreg` (R343, R344, R346). -/

namespace Sys2Proof.Machine

variable {s : State}

/-! ### The system procedure table -/

theorem State.systemProcedure_length {k : Nat} (h : 259 < k) : s.systemProcedure k = .raise .length := if_pos h

/-- An entry of kind 00 (local), and any entry in supervisor mode: the procedure is called on the current stack. -/
theorem State.systemProcedure_stay {k : Nat} (hk : k ≤ 259)
    (hr : s.readable (s.sysProcTable + BitVec.ofNat 32 (48 + 4 * k)) 4 = true)
    (h : (s.readWord (s.sysProcTable + BitVec.ofNat 32 (48 + 4 * k))).extractLsb' 0 2 = 0#2 ∨ s.supervisor = true) :
    s.systemProcedure k =
      .ok { target := s.readWord (s.sysProcTable + BitVec.ofNat 32 (48 + 4 * k)), stack := s.sp, switch := none } := by
  rw [State.systemProcedure, if_neg (by omega), State.loadWord_ok hr, Eff.bind_ok, if_pos h]

/-- A supervisor entry in user mode: the supervisor stack and the trace flag are the table's. -/
theorem State.systemProcedure_switch {k : Nat} (hk : k ≤ 259)
    (hr : s.readable (s.sysProcTable + BitVec.ofNat 32 (48 + 4 * k)) 4 = true)
    (h : (s.readWord (s.sysProcTable + BitVec.ofNat 32 (48 + 4 * k))).extractLsb' 0 2 = 2#2) (hs : s.supervisor = false)
    (hp : s.readable (s.sysProcTable + 12#32) 4 = true) :
    s.systemProcedure k =
      .ok { target := s.readWord (s.sysProcTable + BitVec.ofNat 32 (48 + 4 * k))
            stack := s.readWord (s.sysProcTable + 12#32) &&& 0xFFFFFFFC#32
            switch := some ((s.readWord (s.sysProcTable + 12#32)).getLsbD 0) } := by
  rw [State.systemProcedure, if_neg (by omega), State.loadWord_ok hr, Eff.bind_ok, if_neg (by simp [h, hs]), if_pos h,
    State.loadWord_ok hp, Eff.map_ok]

theorem State.systemProcedure_reserved {k : Nat} (hk : k ≤ 259)
    (hr : s.readable (s.sysProcTable + BitVec.ofNat 32 (48 + 4 * k)) 4 = true)
    (h : (s.readWord (s.sysProcTable + BitVec.ofNat 32 (48 + 4 * k))).extractLsb' 0 2 = 1#2 ∨
      (s.readWord (s.sysProcTable + BitVec.ofNat 32 (48 + 4 * k))).extractLsb' 0 2 = 3#2) (hs : s.supervisor = false) :
    s.systemProcedure k = .refuse .reservedProcedureEntry := by
  rw [State.systemProcedure, if_neg (by omega), State.loadWord_ok hr, Eff.bind_ok]
  rcases h with h | h <;> rw [if_neg (by simp [h, hs]), if_neg (by simp [h])]

/-- The return status of a switch to supervisor mode remembers PC.te (R343). -/
theorem supervisorStatus (b : Bool) : 2#32 ||| BitVec.setWidth 32 (BitVec.ofBool b) = if b then 0b011#32 else 0b010#32 := by
  cases b <;> rfl

/-- PC after a switch to supervisor mode. -/
theorem switchedControls (w : Word) (te : Bool) :
    (setBit (setBit w 1 true) 0 te).getLsbD 1 = true ∧ (setBit (setBit w 1 true) 0 te).getLsbD 0 = te ∧
      ∀ n, 2 ≤ n → (setBit (setBit w 1 true) 0 te).getLsbD n = w.getLsbD n := by
  refine ⟨?_, ?_, fun n hn => ?_⟩
  · rw [getLsbD_setBit _ _ _ _ (by decide), getLsbD_setBit _ _ _ _ (by decide)]; rfl
  · rw [getLsbD_setBit _ _ _ _ (by decide)]; rfl
  · rw [getLsbD_setBit _ _ _ _ (by decide), getLsbD_setBit _ _ _ _ (by decide), if_neg (by omega), if_neg (by omega)]

/-- A call that switches to supervisor mode (R343). -/
theorem State.callSystem_switch (s : State) (target stack : Word) (te : Bool) :
    let t := s.callSystem { target := target, stack := stack, switch := some te }
    Entered s (s.ip + 4#32) (roundUp64 stack) (s.frameBase ||| (if s.te then 0b011#32 else 0b010#32)) t ∧
      t.ip = target &&& 0xFFFFFFFC#32 ∧ t.pctl = setBit (setBit s.pctl 1 true) 0 te := by
  have c := s.doCall_enters target (roundUp64 stack) (2#32 ||| BitVec.setWidth 32 (BitVec.ofBool s.te)) 4#32
  obtain ⟨hin, hip, -, hsp, -⟩ := c
  rw [← supervisorStatus]
  exact ⟨hin.congr rfl rfl rfl rfl rfl, hip, congrArg (fun w => setBit (setBit w 1 true) 0 te) hsp.pctl⟩

/-- Settles O32. -/
theorem systemCalls : Obligations.SystemCalls := by
  intro s x k entryAt entry ssp
  have run : exec (.calls x) s = s.commit ((s.systemProcedure k.toNat).map fun h => s.callSystem h) := rfl
  refine ⟨fun hk => ?_, fun hk hr => ⟨fun h => ?_, fun h hs hp => ?_, fun h hs => ?_⟩⟩
  · rw [run, State.systemProcedure_length hk]; rfl
  · rw [run, State.systemProcedure_stay hk hr h]
    have c := s.doCall_enters entry (roundUp64 s.sp) 0#32 4#32
    have e : s.frameBase ||| 0#32 = s.contents 31#5 &&& 0xFFFFFFC0#32 := BitVec.or_zero
    rw [e] at c
    obtain ⟨hin, hip, -, hsp, -⟩ := c
    exact ⟨_, rfl, hin, hip, hsp.pctl⟩
  · rw [run, State.systemProcedure_switch hk hr h hs hp]
    obtain ⟨hin, hip, hpc⟩ := s.callSystem_switch entry (ssp &&& 0xFFFFFFFC#32) (ssp.getLsbD 0)
    have k := switchedControls s.pctl (ssp.getLsbD 0)
    rw [← hpc] at k
    exact ⟨_, rfl, hin, hip, k⟩
  · rw [run, State.systemProcedure_reserved hk hr h hs]; rfl

/-! ### Return -/

/-- The state with another frame's register set current (R344). -/
def State.resumeWith (set : RegSet) (cached : List CachedFrame) (s : State) : State :=
  ({ s with
      globals := s.globals.set 15 (s.localReg 0 &&& 0xFFFFFFC0#32)
      locals := set
      cached := cached }).goto (set[(2 : Fin 16)]).val

/-- A return to the previous frame, from the chip or from memory. -/
theorem State.localReturn_previous {regs : Fin 16 → Word} {cached : List CachedFrame} (hwf : s.mem.wf = true)
    (h : PreviousFrame s regs cached) :
    ∃ set, s.localReturn = .ok (s.resumeWith set cached) ∧ ∀ i : Fin 16, (set[i]).val = regs i := by
  rcases h with ⟨set, hf, hi⟩ | ⟨hf, hr, rfl, hi⟩
  · exact ⟨set, State.localReturn_cached hf, fun i => (hi i).symm⟩
  · refine ⟨s.reloadFrame (s.localReg 0 &&& 0xFFFFFFC0#32), ?_, fun i => ?_⟩
    · have hf' : findFrame (s.localReg 0 &&& 0xFFFFFFC0#32) s.cached = none := hf
      simp only [State.localReturn, hf']
      exact if_pos (State.ramAt.readable hr)
    · rw [hi, State.reloadFrame, Fin.getElem_fin, Vector.getElem_ofFn]
      have := i.isLt
      exact State.readSlot_val hwf (hr.part (4 * i.val) 4 (by omega))

theorem resumeWith_resumed {set : RegSet} {regs : Fin 16 → Word} (cached : List CachedFrame)
    (h : ∀ i : Fin 16, (set[i]).val = regs i) : Resumed s regs cached (s.resumeWith set cached) := by
  refine ⟨h, ?_, ?_, rfl, fun q hg hq => globals_contents rfl hg hq, rfl, fun _ => rfl, rfl⟩
  · simp [State.contents, isGlobal, bankIndex, State.resumeWith]
  · exact congrArg (· &&& 0xFFFFFFFC#32) (h 2)

/-- What `Resumed` says does not depend on the trace events, AC, PC or the processor state. -/
theorem Resumed.congr {s' t t' : State} {regs : Fin 16 → Word} {cached : List CachedFrame} (h : Resumed s regs cached t)
    (hs : ∃ v, s = s'.event v) (ht : ∃ a p q v, t' = { t with ac := a, pctl := p, proc := q, traced := v }) :
    Resumed s' regs cached t' := by
  obtain ⟨v, rfl⟩ := hs
  obtain ⟨a, p, q, v', rfl⟩ := ht
  exact ⟨h.locals, h.fp, h.ip, h.cached, h.globals, h.fps, h.bytes, h.tctl⟩

/-- The saved controls below the current frame. -/
theorem State.savedControls_ok (h : s.readable (s.frameBase - 16#32) 8 = true) :
    s.savedControls = .ok (s.readWord (s.frameBase - 16#32), s.readWord (s.frameBase - 12#32)) := by
  have h0 := State.readable_part h 0 4 (by decide)
  have h4 := State.readable_part h 4 4 (by decide)
  rw [BitVec.add_zero] at h0
  rw [show s.frameBase - 16#32 + BitVec.ofNat 32 4 = s.frameBase - 12#32 by bv_omega] at h4
  rw [State.savedControls, State.loadWord_ok h0, Eff.bind_ok, State.loadWord_ok h4]
  rfl

/-- AC written as a word reads back (R30). -/
theorem ArithControls.toWord_ofWord (w : Word) : (ArithControls.ofWord w).toWord = w := by
  apply BitVec.eq_of_getLsbD_eq
  intro i hi
  simp only [ArithControls.toWord, ArithControls.ofWord, BitVec.getLsbD_append, BitVec.getLsbD_extractLsb']
  interval_cases i <;> simp

/-- With no interrupt pending, a check of pending interrupts does nothing (R527). -/
theorem checkPending_none (hr : s.readable s.intTable 4 = true) (h : s.readWord s.intTable = 0#32) :
    s.checkPending = .ok s := by
  rw [State.checkPending, State.loadWord_ok hr, Eff.bind_ok, h]
  rfl

theorem thenCheckPending_none (hr : s.readable s.intTable 4 = true) (h : s.readWord s.intTable = 0#32) :
    thenCheckPending s = .next s := by
  rw [thenCheckPending, checkPending_none hr h]

/-- A mode flag among the trace modes. -/
theorem traceModes_and_twoPow (tc : Word) {k : Nat} (h0 : 0 < k) (h8 : k < 8) :
    traceModes tc &&& BitVec.twoPow 8 k = if tc.getLsbD k then BitVec.twoPow 8 k else 0#8 := by
  have hmask : ∀ k, k < 8 → 0 < k → (0xFE#8).getLsbD k = true := by decide
  rw [BitVec.and_twoPow, traceModes, BitVec.getLsbD_and, BitVec.getLsbD_extractLsb', hmask k h8 h0]
  simp [h8]

/-- What a return does under return status `n` once no prereturn trace is due (R344). -/
def returnUnder (s : State) : Nat → Res
  | 0 => s.commit (s.event evReturn).localReturn
  | 1 => s.commit (s.event evReturn).handlerReturn
  | 2 => s.commit ((s.event evReturn).supervisorReturn false)
  | 3 => s.commit ((s.event evReturn).supervisorReturn true)
  | 7 => s.commitThen (s.event evReturn).handlerReturn fun u =>
      thenCheckPending { u with proc := afterInterruptReturn u.pctl u.proc }
  | _ => .refused .reservedReturnStatus

theorem execRet_eq (h : NoPrereturn s) : execRet s = returnUnder s ((s.contents 0#5).extractLsb' 0 3).toNat := by
  have hc : ¬ ((s.localReg 0).getLsbD 3 = true ∧ s.te = true ∧ traceModes s.tctl &&& evPrereturn ≠ 0) := by
    rintro ⟨h1, h2, h3⟩
    rcases h with h | h | h
    · exact absurd (h1.symm.trans h) (by decide)
    · rw [h] at h2; cases h2
    · rw [show evPrereturn = BitVec.twoPow 8 5 from rfl, traceModes_and_twoPow _ (by decide) (by decide), h] at h3
      exact h3 rfl
  rw [execRet, if_neg hc]
  rfl

end Sys2Proof.Machine
end

section
/-! SUPPORT. What each return status and `flushreg` leave (R344, R346). -/

namespace Sys2Proof.Machine

variable {s : State} {regs : Fin 16 → Word} {cached : List CachedFrame}

theorem PreviousFrame.event (h : PreviousFrame s regs cached) (e : BitVec 8) : PreviousFrame (s.event e) regs cached := h

/-- The state a handler return leaves (R344). -/
def State.handlerResume (set : RegSet) (cached : List CachedFrame) (pc ac : Word) (s : State) : State :=
  { s.resumeWith set cached with
    ac := ArithControls.ofWord ac
    pctl := if s.supervisor then pc else s.pctl
    traced := if s.te then s.traced else 0 }

theorem State.handlerReturn_previous (hwf : s.mem.wf = true) (h : PreviousFrame s regs cached)
    (hr : s.readable (s.frameBase - 16#32) 8 = true) :
    ∃ set, (∀ i : Fin 16, (set[i]).val = regs i) ∧ s.handlerReturn = .ok (s.handlerResume set cached
      (s.readWord (s.frameBase - 16#32)) (s.readWord (s.frameBase - 12#32))) := by
  obtain ⟨set, hset, hi⟩ := State.localReturn_previous hwf h
  refine ⟨set, hi, ?_⟩
  rw [State.handlerReturn, State.savedControls_ok hr, Eff.bind_ok, hset]
  rfl

theorem handlerResume_resumed {set : RegSet} (h : ∀ i : Fin 16, (set[i]).val = regs i) (pc ac : Word) (e : BitVec 8)
    (p : ProcState) : Resumed s regs cached { (s.event e).handlerResume set cached pc ac with proc := p } :=
  (resumeWith_resumed (s := s.event e) cached h).congr ⟨e, rfl⟩ ⟨_, _, _, _, rfl⟩

/-- Return status 000 (R344). -/
theorem returnUnder_local (hwf : s.mem.wf = true) (h : PreviousFrame s regs cached) :
    Gives (returnUnder s 0) fun t => Resumed s regs cached t ∧ t.ac = s.ac ∧ t.pctl = s.pctl ∧ t.proc = s.proc ∧
      t.traced = s.traced ||| evReturn := by
  obtain ⟨set, hset, hi⟩ := State.localReturn_previous (s := s.event evReturn) hwf h
  refine ⟨(s.event evReturn).resumeWith set cached, by rw [returnUnder, hset]; rfl, ?_, rfl, rfl, rfl, rfl⟩
  exact (resumeWith_resumed (s := s.event evReturn) cached hi).congr ⟨evReturn, rfl⟩ ⟨_, _, _, _, rfl⟩

/-- Return status 001. -/
theorem returnUnder_handler (hwf : s.mem.wf = true) (h : PreviousFrame s regs cached)
    (hr : s.readable (s.frameBase - 16#32) 8 = true) :
    Gives (returnUnder s 1) fun t => Resumed s regs cached t ∧ t.ac.toWord = s.readWord (s.frameBase - 12#32) ∧
      (t.pctl = if s.supervisor then s.readWord (s.frameBase - 16#32) else s.pctl) ∧ t.proc = s.proc := by
  obtain ⟨set, hi, hset⟩ := State.handlerReturn_previous (s := s.event evReturn) hwf h hr
  exact ⟨_, by rw [returnUnder, hset]; rfl, handlerResume_resumed hi _ _ evReturn s.proc,
    ArithControls.toWord_ofWord _, rfl, rfl⟩

/-- Return status 010 and 011: out of supervisor mode, with PC.te as the status says. -/
theorem supervisorReturn_previous (te : Bool) (hwf : s.mem.wf = true) (h : PreviousFrame s regs cached) :
    Gives (s.commit ((s.event evReturn).supervisorReturn te)) fun t => Resumed s regs cached t ∧ t.ac = s.ac ∧
      t.supervisor = false ∧ (t.te = if s.supervisor then te else s.te) ∧ t.proc = s.proc := by
  obtain ⟨set, hset, hi⟩ := State.localReturn_previous (s := s.event evReturn) hwf h
  have hres := resumeWith_resumed (s := s.event evReturn) cached hi
  have run : (s.event evReturn).supervisorReturn te = .ok (if s.supervisor then
      ((((s.event evReturn).resumeWith set cached).setTe te).setSupervisor false).event evSupervisor
      else (s.event evReturn).resumeWith set cached) := by
    rw [State.supervisorReturn, hset]
    rfl
  refine ⟨_, by rw [run]; rfl, ?_⟩
  have bits : (setBit (setBit s.pctl 0 te) 1 false).getLsbD 1 = false ∧
      (setBit (setBit s.pctl 0 te) 1 false).getLsbD 0 = te := by
    constructor
    · rw [getLsbD_setBit _ _ _ _ (by decide)]; rfl
    · rw [getLsbD_setBit _ _ _ _ (by decide), getLsbD_setBit _ _ _ _ (by decide)]; rfl
  cases hs : s.supervisor with
  | true => exact ⟨hres.congr ⟨evReturn, rfl⟩ ⟨_, _, _, _, rfl⟩, rfl, bits.1, bits.2, rfl⟩
  | false => exact ⟨hres.congr ⟨evReturn, rfl⟩ ⟨_, _, _, _, rfl⟩, rfl, hs, rfl, rfl⟩

theorem afterInterruptReturn_inside {pc : Word} (h : pc.extractLsb' 13 2 = 1#2) (p : ProcState) :
    afterInterruptReturn pc p = p := by
  unfold afterInterruptReturn
  exact if_pos (beq_iff_eq.2 h)

theorem afterInterruptReturn_outermost {pc : Word} (h : pc.extractLsb' 13 2 ≠ 1#2) (p : ProcState) :
    (p = .interrupted → afterInterruptReturn pc p = .executing) ∧
      (p = .idleInterrupted → afterInterruptReturn pc p = .idle) := by
  have hf : ¬ interruptedOf pc = true := mt beq_iff_eq.1 h
  constructor <;> rintro rfl <;> exact if_neg hf

/-- Return status 111 with no interrupt pending. -/
theorem returnUnder_interrupt (hwf : s.mem.wf = true) (h : PreviousFrame s regs cached)
    (hr : s.readable (s.frameBase - 16#32) 8 = true) (hi : s.readable s.intTable 4 = true)
    (h0 : s.readWord s.intTable = 0#32) :
    Gives (returnUnder s 7) fun t => Resumed s regs cached t ∧ t.ac.toWord = s.readWord (s.frameBase - 12#32) ∧
      (t.pctl = if s.supervisor then s.readWord (s.frameBase - 16#32) else s.pctl) ∧
      (t.pctl.extractLsb' 13 2 = 1#2 → t.proc = s.proc) ∧
      (t.pctl.extractLsb' 13 2 ≠ 1#2 → (s.proc = .interrupted → t.proc = .executing) ∧
        (s.proc = .idleInterrupted → t.proc = .idle)) := by
  obtain ⟨set, hset, hret⟩ := State.handlerReturn_previous (s := s.event evReturn) hwf h hr
  refine ⟨_, by rw [returnUnder, hret]; exact thenCheckPending_none hi h0, handlerResume_resumed hset _ _ evReturn _,
    ArithControls.toWord_ofWord _, rfl, fun hp => afterInterruptReturn_inside hp s.proc,
    fun hp => afterInterruptReturn_outermost hp s.proc⟩

/-- Settles O33: one lemma for each return status. -/
theorem returnsResumeThePreviousFrame : Obligations.ReturnsResumeThePreviousFrame := by
  intro s regs cached hwf hn h status fp savedAc savedPc
  have run : ∀ n : Nat, status.toNat = n → exec .ret s = returnUnder s n := fun n hs => hs ▸ execRet_eq hn
  refine ⟨fun hs => ?_, fun hs hr => ?_, ?_, fun hs hr hi h0 => ?_, ?_⟩
  · rw [run 0 (congrArg BitVec.toNat hs)]
    exact returnUnder_local hwf h
  · rw [run 1 (congrArg BitVec.toNat hs)]
    exact returnUnder_handler hwf h hr
  · rintro (hs | hs)
    · rw [run 2 (congrArg BitVec.toNat hs), hs]
      exact supervisorReturn_previous false hwf h
    · rw [run 3 (congrArg BitVec.toNat hs), hs]
      exact supervisorReturn_previous true hwf h
  · rw [run 7 (congrArg BitVec.toNat hs)]
    exact returnUnder_interrupt hwf h hr hi h0
  · rintro (hs | hs | hs)
    · exact run 4 (congrArg BitVec.toNat hs)
    · exact run 5 (congrArg BitVec.toNat hs)
    · exact run 6 (congrArg BitVec.toNat hs)

/-- Settles O34. -/
theorem flushWritesCachedFrames : Obligations.FlushWritesCachedFrames := by
  intro s
  have st := State.flushBeyond_memStep s.cached 0 s
  exact ⟨_, rfl, rfl, congrArg (· + 4#32) st.ip, st.ac, st.pctl, st.contents,
    fun x hx => State.flushBeyond_sameOutside s.cached 0 s x hx,
    fun hp f hf hr i => State.readWord_flushBeyond s.cached s hp f hf hr i⟩

end Sys2Proof.Machine
end

section
/-! SUPPORT. Interrupts: posting one, entering a handler, and serving those that are pending (R525 to R533). -/

namespace Sys2Proof.Machine

variable {s t u : State}

/-! ### Addresses of words near each other -/

/-- A word that lies in a range which is apart from another has no byte in that one. -/
theorem Apart.word {a b : Word} {n m : Nat} (h : Apart a n b m) {j : Nat} (hj : j < m) :
    n ≤ (b + BitVec.ofNat 32 j - a).toNat := by
  obtain ⟨h1, h2⟩ := h
  have e : b + BitVec.ofNat 32 j - a = b - a + BitVec.ofNat 32 j := by
    rw [BitVec.sub_eq_add_neg, BitVec.sub_eq_add_neg, BitVec.add_assoc, BitVec.add_assoc,
      BitVec.add_comm (BitVec.ofNat 32 j)]
  have hab : (a - b).toNat = (2 ^ 32 - (b - a).toNat) % 2 ^ 32 := by
    rw [← BitVec.toNat_neg]
    congr 1
    rw [neg_sub]
  have hlt := (b - a).isLt
  rw [e, BitVec.toNat_add, BitVec.toNat_ofNat]
  omega

theorem four_mul_ofNat (n : Nat) : 4#32 * BitVec.ofNat 32 n = BitVec.ofNat 32 (4 * n) := by
  rw [BitVec.ofNat_mul]

/-- What an address that is no device's holds does not depend on the counter of free values. -/
theorem State.readByte_congr_notDevice (hm : t.mem = s.mem) (hp : t.memMap = s.memMap) {x : Word}
    (h : kindAt s.memMap x.toNat ≠ .device) : t.readByte x = s.readByte x := by
  unfold State.readByte
  rw [hm, hp]
  split
  case h_1 hd => exact absurd hd h
  case h_2 => rfl

theorem State.readWord_congr_ram (hm : t.mem = s.mem) (hp : t.memMap = s.memMap) {a : Word} (h : s.ramAt a 4) :
    t.readWord a = s.readWord a :=
  State.readWord_congr_at fun i hi => State.readByte_congr_notDevice hm hp (by rw [h i hi]; decide)

/-! ### Posting -/

/-- The state with an interrupt posted (R527). -/
def State.posted (v : BitVec 8) (s : State) : State :=
  (s.writeWord s.intTable (s.readWord s.intTable ||| BitVec.twoPow 32 (v.toNat / 8))).writeWord (s.pendingWordAddr v)
    (s.readWord (s.pendingWordAddr v) ||| BitVec.twoPow 32 (v.toNat % 32))

theorem State.pendingWordAddr_eq (s : State) (v : BitVec 8) :
    s.pendingWordAddr v = s.intTable + 4#32 + BitVec.ofNat 32 (4 * (v.toNat / 32)) := by
  rw [State.pendingWordAddr, four_mul_ofNat]

/-- The pending word of a vector is part of the table's first 36 bytes (R527). -/
theorem State.pendingWordAddr_part (s : State) (v : BitVec 8) :
    ∃ k, k + 4 ≤ 36 ∧ 4 ≤ k ∧ s.pendingWordAddr v = s.intTable + BitVec.ofNat 32 k := by
  have hv := v.isLt
  refine ⟨4 + 4 * (v.toNat / 32), by omega, by omega, ?_⟩
  rw [State.pendingWordAddr_eq, BitVec.ofNat_add, BitVec.add_assoc]

theorem State.postInterrupt_ok (v : BitVec 8) (h : s.readable s.intTable 36 = true) :
    s.postInterrupt v = .ok (s.posted v) := by
  obtain ⟨k, hk, -, e⟩ := s.pendingWordAddr_part v
  have h0 := State.readable_part h 0 4 (by decide)
  have hp := State.readable_part h k 4 hk
  rw [BitVec.add_zero] at h0
  rw [← e] at hp
  rw [State.postInterrupt, State.loadWord_ok h0, Eff.bind_ok, State.loadWord_ok hp]
  rfl

theorem State.posted_memStep (v : BitVec 8) (s : State) : s.MemStep (s.posted v) :=
  (State.writeWord_memStep _ _ s).trans (State.writeWord_memStep _ _ _)

/-- Words of a table read after two of them were written. -/
theorem readWord_two_writes {a b x y : Word} {k : Nat} (hb : b = a + BitVec.ofNat 32 k) (h4 : 4 ≤ k) (hk : k + 4 ≤ 36)
    (h : s.ramAt a 36) :
    ((s.writeWord a x).writeWord b y).readWord a = x ∧ ((s.writeWord a x).writeWord b y).readWord b = y := by
  have h0 := h.part 0 4 (by decide)
  have hp := h.part k 4 hk
  rw [BitVec.add_zero] at h0
  rw [← hb] at hp
  constructor
  · rw [State.readWord_writeWord_apart y fun i hi => by subst hb; bv_omega]
    exact State.readWord_writeWord_ram x h0
  · exact State.readWord_writeWord_ram y (hp.congr (State.writeWord_memStep a x s).memMap)

theorem State.posted_spec (v : BitVec 8) (h : s.ramAt s.intTable 36) : Posted s v (s.posted v) := by
  obtain ⟨k, hk, h4, e⟩ := s.pendingWordAddr_part v
  obtain ⟨h1, h2⟩ := readWord_two_writes (x := s.readWord s.intTable ||| BitVec.twoPow 32 (v.toNat / 8))
    (y := s.readWord (s.pendingWordAddr v) ||| BitVec.twoPow 32 (v.toNat % 32)) e h4 hk h
  refine ⟨h1, ?_, fun x hx hx' _ => ?_⟩
  · rw [← State.pendingWordAddr_eq]
    exact h2
  · rw [← State.pendingWordAddr_eq] at hx'
    rw [State.posted, State.writeWord_sameOutside _ _ _ x hx', State.writeWord_sameOutside _ _ _ x hx]

/-- What `Posted` says depends on memory and the map. -/
theorem Posted.congr {v : BitVec 8} (h : Posted s v t) (hr : s.ramAt s.intTable 36) (hp : t.memMap = s.memMap)
    (hm : u.mem = t.mem) (hu : u.memMap = t.memMap) : Posted s v u := by
  obtain ⟨k, hk, -, e⟩ := s.pendingWordAddr_part v
  have h0 := (hr.part 0 4 (by decide)).congr hp
  have hv := (hr.part k 4 hk).congr hp
  rw [BitVec.add_zero] at h0
  rw [← e, State.pendingWordAddr_eq] at hv
  refine ⟨(State.readWord_congr_ram hm hu h0).trans h.priority, (State.readWord_congr_ram hm hu hv).trans h.vector,
    fun x hx hx' hd => ?_⟩
  rw [State.readByte_congr_notDevice hm hu (by rwa [hp])]
  exact h.bytes x hx hx' hd

theorem servesNow_iff (s : State) (v : BitVec 8) : s.servesNow v = true ↔ Serves s v := by
  rw [State.servesNow, Bool.or_eq_true, decide_eq_true_eq, beq_iff_eq]
  exact Iff.rfl

theorem State.interruptArrives_serves {v : BitVec 8} (h8 : 8 ≤ v.toNat) (h : Serves s v) :
    s.interruptArrives v = s.interruptEntry v s.ip := by
  rw [State.interruptArrives, if_neg (by omega), if_pos ((servesNow_iff s v).2 h)]

theorem State.interruptArrives_posts {v : BitVec 8} (h8 : 8 ≤ v.toNat) (h : ¬ Serves s v)
    (hr : s.readable s.intTable 36 = true) : s.interruptArrives v = .ok (s.posted v) := by
  rw [State.interruptArrives, if_neg (by omega), if_neg (mt (servesNow_iff s v).1 h), State.postInterrupt_ok v hr]

/-- Settles O6. -/
theorem interruptRequestServedOrPosted : Obligations.InterruptRequestServedOrPosted := by
  intro s v more hr hs he h8 hread hram
  rw [step_interrupt hr hs he, State.takeInterrupt]
  constructor
  · intro hserves u hu
    rw [State.interruptArrives_serves (s := s.withEnv more) h8 hserves]
    have hu' : (s.withEnv more).interruptEntry v (s.withEnv more).ip = .ok u := hu
    rw [hu', State.commit_ok]
    rfl
  · intro hposts
    rw [State.interruptArrives_posts (s := s.withEnv more) h8 hposts hread, State.commit_ok]
    have st := State.posted_memStep v (s.withEnv more)
    have hp := State.posted_spec (s := s.withEnv more) v hram
    generalize (s.withEnv more).posted v = t at st hp
    have hc := hp.congr (u := { t with traced := 0#8, serial := t.serial + 1 }) hram st.memMap rfl rfl
    exact ⟨_, rfl, ⟨hc.priority, hc.vector, hc.bytes⟩, st.ip, st.pctl, st.ac, st.proc, st.contents, st.env⟩

/-! ### Entering a handler -/

/-- The new frame of an interrupt handler (R533). -/
def State.handlerFrame (s : State) : Word :=
  roundUp64 (roundUp64 (if interruptedOf s.pctl then s.sp else s.intStack) + 16#32)

/-- PC and the processor state replaced. -/
def State.withControls (pc : Word) (p : ProcState) (s : State) : State := { s with pctl := pc, proc := p }

@[simp] theorem State.withControls_readByte (pc : Word) (p : ProcState) (s : State) (x : Word) :
    (s.withControls pc p).readByte x = s.readByte x := rfl

/-- The processor state after an interrupt (R54). -/
def interruptedState (p : ProcState) : ProcState :=
  match p with
  | .executing => .interrupted
  | .idle => .idleInterrupted
  | p => p

/-- The words an interrupt saves below its frame (R533). -/
def State.handlerSaves (v : BitVec 8) (s : State) : State :=
  s.writeWords (s.handlerFrame - 16#32) [s.pctl, s.ac.toWord, v.setWidth 32]

/-- The state in the handler of vector `v` (R533). -/
def State.inHandler (v : BitVec 8) (returnIp : Word) (s : State) : State :=
  (((s.handlerSaves v).enterFrame returnIp s.handlerFrame (s.frameBase ||| 7#32)).goto
    (s.readWord (s.intTable + 4#32 + BitVec.ofNat 32 (4 * v.toNat)))).withControls
      (interruptControls s.pctl (v.toNat / 8)) (interruptedState s.proc)

theorem writeWords_three (s : State) (a x y z : Word) :
    s.writeWords (a - 16#32) [x, y, z] =
      ((s.writeWord (a - 16#32) x).writeWord (a - 12#32) y).writeWord (a - 8#32) z := by
  have h1 : a - 16#32 + 4 = a - 12#32 := by bv_omega
  have h2 : a - 12#32 + 4 = a - 8#32 := by bv_omega
  simp only [State.writeWords, h1, h2]

theorem vectorOffset (v : BitVec 8) : 4#32 * v.setWidth 32 = BitVec.ofNat 32 (4 * v.toNat) := by
  rw [← four_mul_ofNat]
  congr 1
  apply BitVec.eq_of_toNat_eq
  simp

theorem State.interruptEntry_ok {v : BitVec 8} (returnIp : Word)
    (h : s.readable (s.intTable + 4#32 + BitVec.ofNat 32 (4 * v.toNat)) 4 = true) :
    s.interruptEntry v returnIp = .ok (s.inHandler v returnIp) := by
  rw [State.interruptEntry, vectorOffset, State.loadWord_ok h, Eff.map_ok, State.inHandler, State.handlerSaves,
    writeWords_three]
  rfl

theorem State.interruptEntry_bad {v : BitVec 8} (returnIp : Word)
    (h : s.readable (s.intTable + 4#32 + BitVec.ofNat 32 (4 * v.toNat)) 4 = false) :
    s.interruptEntry v returnIp = .raise .badAccess := by
  rw [State.interruptEntry, vectorOffset, State.loadWord_bad h, Eff.map_raise]

theorem handlerSaves_memStep (v : BitVec 8) (s : State) : s.MemStep (s.handlerSaves v) :=
  State.writeWords_memStep _ _ s

/-- What the handler of an interrupt finds in the registers, the control words and memory. -/
theorem inHandler_spec (v : BitVec 8) (returnIp : Word) (s : State) :
    Entered s returnIp s.handlerFrame (s.frameBase ||| 7#32) (s.inHandler v returnIp) ∧
      (∀ x, (s.inHandler v returnIp).readByte x =
        ((s.handlerSaves v).enterFrame returnIp s.handlerFrame (s.frameBase ||| 7#32)).readByte x) ∧
      (s.inHandler v returnIp).tctl = s.tctl := by
  have st := handlerSaves_memStep v s
  have hin := enterFrame_entered st returnIp s.handlerFrame (s.frameBase ||| 7#32)
  obtain ⟨-, htc, -⟩ := enterFrame_keeps returnIp s.handlerFrame (s.frameBase ||| 7#32) (s.handlerSaves v)
  rw [st.tctl] at htc
  rw [State.inHandler]
  generalize (s.handlerSaves v).enterFrame returnIp s.handlerFrame (s.frameBase ||| 7#32) = t at hin htc
  exact ⟨hin.congr rfl rfl rfl rfl rfl, fun x => rfl, htc⟩

/-- The three saved words are in memory while the handler's frame is entered (R533). -/
theorem inHandler_saved (v : BitVec 8) (returnIp : Word) (s : State) (hram : s.ramAt (s.handlerFrame - 16#32) 12)
    (hapart : ∀ f ∈ s.flushed, Apart f.frame 64 (s.handlerFrame - 16#32) 12) :
    (s.inHandler v returnIp).readWords (s.handlerFrame - 16#32) 3 = [s.pctl, s.ac.toWord, v.setWidth 32] := by
  have st := handlerSaves_memStep v s
  have saved : (s.handlerSaves v).readWords (s.handlerFrame - 16#32) 3 = [s.pctl, s.ac.toWord, v.setWidth 32] :=
    State.readWords_writeWords [s.pctl, s.ac.toWord, v.setWidth 32] (s.handlerFrame - 16#32) s (by simp) hram
  obtain ⟨-, bytes, -⟩ := inHandler_spec v returnIp s
  rw [← saved, State.readWords_congr bytes, State.readWords_eq_map, State.readWords_eq_map]
  refine List.map_congr_left fun k hk => enterFrame_readWord st _ _ _ fun f hf i hi => ?_
  rw [add_ofNat_add]
  exact (hapart f hf).word (by have := List.mem_range.1 hk; omega)

theorem readWords_three (s : State) (a : Word) :
    s.readWords (a - 16#32) 3 = [s.readWord (a - 16#32), s.readWord (a - 12#32), s.readWord (a - 8#32)] := by
  have h1 : a - 16#32 + 4 = a - 12#32 := by bv_omega
  have h2 : a - 12#32 + 4 = a - 8#32 := by bv_omega
  simp only [State.readWords, h1, h2]

/-- Settles O48. -/
theorem interruptsEnterTheirHandler : Obligations.InterruptsEnterTheirHandler := by
  intro s v returnIp hc entryAt up nfp hr hram hapart
  have hframe : s.handlerFrame = nfp := by
    simp only [State.handlerFrame, interruptedOf, beq_iff_eq]
    rfl
  have st := handlerSaves_memStep v s
  obtain ⟨hin, bytes, htc⟩ := inHandler_spec v returnIp s
  have saved := inHandler_saved v returnIp s (by rwa [hframe]) (by rwa [hframe])
  rw [readWords_three] at saved
  simp only [List.cons.injEq, and_true] at saved
  obtain ⟨s16, s12, s8⟩ := saved
  rw [hframe] at hin s16 s12 s8
  refine ⟨_, State.interruptEntry_ok returnIp hr, hin, rfl, s16, s12, s8, fun f hf hr i => ?_, fun x hx hf => ?_,
    interruptControls_supervisor _ _, interruptControls_te _ _, interruptControls_state _ _,
    interruptControls_priority _ _, fun k hk => interruptControls_others _ _ k hk, htc, fun hp => ?_, fun hp => ?_,
    fun hp => ?_⟩
  · rw [State.readWord_congr bytes]
    exact enterFrame_flushed st hc _ _ _ f hf hr i
  · rw [bytes, enterFrame_outside st _ _ _ hf]
    exact State.writeWords_sameOutside [s.pctl, s.ac.toWord, v.setWidth 32] _ s x (by rwa [hframe])
  · exact congrArg interruptedState hp
  · exact congrArg interruptedState hp
  · rcases hp with hp | hp <;> exact (congrArg interruptedState hp).trans hp.symm

end Sys2Proof.Machine
end

section
/-! SUPPORT. Pending interrupts, initialization, and the messages a processor sends itself (R527, R540, R581). -/

namespace Sys2Proof.Machine

variable {s t : State}

/-! ### Pending interrupts -/

theorem filterMap_ite {α : Type} (q : Nat → Bool) (g : Nat → α) (l : List Nat) :
    l.filterMap (fun i => if q i then some (g i) else none) = (l.filter q).map g := by
  induction l with
  | nil => rfl
  | cons i l ih => cases h : q i <;> simp [h, ih]

/-- The vectors of priority `p` that are pending, as eight times `p` and a number below 8 (R527). -/
theorem pendingVectors_eq (w : Word) (p : Nat) :
    pendingVectors w p = ((List.range 8).filter fun i => w.getLsbD (8 * (p % 4) + i)).map (8 * p + ·) := by
  rw [pendingVectors, show 8 * p % 32 = 8 * (p % 4) by omega, filterMap_ite (fun i => w.getLsbD (8 * (p % 4) + i))]

theorem pickPending_mem (n : Nat) : ∀ {l : List Nat}, l ≠ [] → ∃ v ∈ l, pickPending n l = some v
  | [], h => absurd rfl h
  | [v], _ => ⟨v, List.mem_cons_self, rfl⟩
  | v :: w :: l, _ => by
    refine ⟨_, ?_, rfl⟩
    rw [List.getD_eq_getElem _ _ (Nat.mod_lt _ (by simp))]
    exact List.getElem_mem _

theorem filter_ne_eq_nil_iff {l : List Nat} {i : Nat} (hl : l.Nodup) (hi : i ∈ l) :
    l.filter (· ≠ i) = [] ↔ l = [i] := by
  have e : l.filter (· ≠ i) = l.erase i := by
    rw [hl.erase_eq_filter]
    exact List.filter_congr fun j _ => by rw [Bool.eq_iff_iff, decide_eq_true_eq, bne_iff_ne]
  rw [e, List.erase_eq_nil_iff]
  exact ⟨fun h => h.resolve_left (List.ne_nil_of_mem hi), .inr⟩

/-- No vector is left exactly when the one taken was the only one. -/
theorem pendingVectors_cleared (w : Word) (p i : Nat)
    (hi : i ∈ (List.range 8).filter fun i => w.getLsbD (8 * (p % 4) + i)) :
    (pendingVectors (setBit w (8 * (p % 4) + i) false) p).isEmpty = true ↔
      ((List.range 8).filter fun i => w.getLsbD (8 * (p % 4) + i)) = [i] := by
  have h8 : i < 8 := List.mem_range.1 (List.mem_filter.1 hi).1
  rw [← filter_ne_eq_nil_iff (List.nodup_range.filter _) hi, List.isEmpty_iff, pendingVectors_eq, List.map_eq_nil_iff,
    List.filter_filter]
  have e : ∀ j, (setBit w (8 * (p % 4) + i) false).getLsbD (8 * (p % 4) + j) =
      (decide (j ≠ i) && w.getLsbD (8 * (p % 4) + j)) := fun j => by
    rw [getLsbD_setBit _ _ _ _ (by omega)]
    by_cases h : j = i <;> simp [h]
  simp only [e]

theorem State.pendingWordAddr_priority (s : State) {p i : Nat} (hp : p < 32) (hi : i < 8) :
    s.pendingWordAddr (BitVec.ofNat 8 (8 * p + i)) = s.intTable + 4#32 + BitVec.ofNat 32 (4 * (p / 4)) := by
  rw [State.pendingWordAddr_eq, BitVec.toNat_ofNat, Nat.mod_eq_of_lt (by omega), show (8 * p + i) / 32 = p / 4 by omega]

/-- The pending word of a priority lies in the table, after its first word. -/
theorem pendingOffset (a : Word) (p : Nat) :
    a + 4#32 + BitVec.ofNat 32 (4 * (p / 4)) = a + BitVec.ofNat 32 (4 + 4 * (p / 4)) := by
  rw [BitVec.ofNat_add, BitVec.add_assoc]

/-- The tables after vector `i` of priority `p` has been taken out (R527). -/
def State.takenOut (p i : Nat) (s : State) : State :=
  let at' := s.intTable + 4#32 + BitVec.ofNat 32 (4 * (p / 4))
  let left := setBit (s.readWord at') (8 * (p % 4) + i) false
  let t := s.writeWord at' left
  if (pendingVectors left p).isEmpty then t.writeWord s.intTable (setBit (s.readWord s.intTable) p false) else t

theorem takenOut_memStep (p i : Nat) (s : State) : s.MemStep (s.takenOut p i) := by
  unfold State.takenOut
  dsimp only
  split
  · exact (State.writeWord_memStep _ _ _).trans (State.writeWord_memStep _ _ _)
  · exact State.writeWord_memStep _ _ _

theorem takenOut_spec {p i : Nat} (hp : p < 32) (hram : s.ramAt s.intTable 36) :
    let at' := s.intTable + 4#32 + BitVec.ofNat 32 (4 * (p / 4))
    let left := setBit (s.readWord at') (8 * (p % 4) + i) false
    (s.takenOut p i).readWord at' = left ∧
      ((s.takenOut p i).readWord s.intTable = if (pendingVectors left p).isEmpty then
        setBit (s.readWord s.intTable) p false else s.readWord s.intTable) ∧
      ∀ x : Word, 4 ≤ (x - at').toNat → 4 ≤ (x - s.intTable).toNat → (s.takenOut p i).readByte x = s.readByte x := by
  intro at' left
  have hat : at' = s.intTable + BitVec.ofNat 32 (4 + 4 * (p / 4)) := pendingOffset _ p
  have hr0 := hram.part 0 4 (by decide)
  have hr := hram.part (4 + 4 * (p / 4)) 4 (by omega)
  rw [BitVec.add_zero] at hr0
  rw [← hat] at hr
  have hk : 4 + 4 * (p / 4) ≤ 32 := by omega
  have h4 : 4 ≤ 4 + 4 * (p / 4) := by omega
  generalize 4 + 4 * (p / 4) = k at hat hk h4
  have run : s.takenOut p i = if (pendingVectors left p).isEmpty then
    (s.writeWord at' left).writeWord s.intTable (setBit (s.readWord s.intTable) p false) else s.writeWord at' left := rfl
  rw [run]
  split
  case isTrue =>
    refine ⟨?_, ?_, fun x h h' => ?_⟩
    · rw [State.readWord_writeWord_apart _ fun j hj => by rw [hat]; bv_omega]
      exact State.readWord_writeWord_ram left hr
    · exact State.readWord_writeWord_ram _ (hr0.congr (State.writeWord_memStep at' left s).memMap)
    · rw [State.writeWord_sameOutside _ _ _ x h', State.writeWord_sameOutside _ _ _ x h]
  case isFalse =>
    refine ⟨State.readWord_writeWord_ram left hr, ?_, fun x h _ => State.writeWord_sameOutside _ _ _ x h⟩
    exact State.readWord_writeWord_apart left fun j hj => by rw [hat]; bv_omega

/-- A priority that does not qualify is left pending. -/
theorem checkPending_leaves {p : Nat} (hr0 : s.readable s.intTable 4 = true)
    (high : highestBelow (s.readWord s.intTable) 32 = some p) (h : ¬ (priorityOf s.pctl < p ∨ p = 31)) :
    s.checkPending = .ok s := by
  simp only [State.checkPending, State.loadWord_ok hr0, Eff.bind_ok, high, if_neg h]

/-- A priority that qualifies: one of its vectors is taken out, and its handler entered. -/
theorem checkPending_serves {p i : Nat} (hp : p < 32) (hi : i < 8) (hr0 : s.readable s.intTable 4 = true)
    (hr : s.readable (s.intTable + 4#32 + BitVec.ofNat 32 (4 * (p / 4))) 4 = true)
    (high : highestBelow (s.readWord s.intTable) 32 = some p) (h : priorityOf s.pctl < p ∨ p = 31)
    (hpick : pickPending s.serial
      (pendingVectors (s.readWord (s.intTable + 4#32 + BitVec.ofNat 32 (4 * (p / 4)))) p) = some (8 * p + i)) :
    s.checkPending = (s.takenOut p i).interruptEntry (BitVec.ofNat 8 (8 * p + i)) (s.takenOut p i).ip := by
  have e := s.pendingWordAddr_priority hp (by decide : 0 < 8)
  rw [Nat.add_zero] at e
  simp only [State.checkPending, State.loadWord_ok hr0, Eff.bind_ok, high, if_pos h, e, State.loadWord_ok hr, hpick,
    s.pendingWordAddr_priority hp hi, show (8 * p + i) % 32 = 8 * (p % 4) + i by omega]
  rfl

/-- Settles O38. -/
theorem pendingInterruptsAreServedByPriority : Obligations.PendingInterruptsAreServedByPriority := by
  intro s p hp h1 hread hram hbit habove at' vectors
  have hr0 := State.readable_part hread 0 4 (by decide)
  have hr := State.readable_part hread (4 + 4 * (p / 4)) 4 (by omega)
  rw [BitVec.add_zero] at hr0
  rw [← pendingOffset] at hr
  have high := highestBelow_eq_some hbit 32 hp fun q hq _ => habove q hq
  refine ⟨checkPending_leaves hr0 high, fun hyes hne => ?_⟩
  have hvectors : pendingVectors (s.readWord at') p = vectors.map (8 * p + ·) := pendingVectors_eq _ p
  obtain ⟨v, hv, hpick⟩ := pickPending_mem s.serial (l := pendingVectors (s.readWord at') p)
    (by rw [hvectors]; exact fun e => hne (List.map_eq_nil_iff.1 e))
  rw [hvectors] at hv
  obtain ⟨i, hi, rfl⟩ := List.mem_map.1 hv
  have h8 : i < 8 := List.mem_range.1 (List.mem_filter.1 hi).1
  have st := takenOut_memStep p i s
  obtain ⟨hat, htab, hbytes⟩ := takenOut_spec (i := i) hp hram
  exact ⟨i, hi, s.takenOut p i, checkPending_serves hp h8 hr0 hr high hyes hpick, hat,
    htab.trans (if_congr (pendingVectors_cleared _ p i hi) rfl rfl), hbytes, st.ip, st.ac, st.sameRegisters⟩

end Sys2Proof.Machine
end

section
/-! SUPPORT. Initialization and the messages a processor sends itself (R540, R541, R545, R581). -/

namespace Sys2Proof.Machine

variable {s t : State}

/-! ### The PRCB and the initial memory image -/

/-- The state with the fields of a PRCB on the chip (R52). -/
def State.prcbLoaded (segTable prcb : Word) (s : State) : State :=
  { s with
    segTable := segTable
    prcb := prcb
    procControls := s.readWord (prcb + 4#32)
    dispatchPort := s.readWord (prcb + 16#32)
    intTable := s.readWord (prcb + 20#32)
    intStack := s.readWord (prcb + 24#32)
    region3 := s.readWord (prcb + 32#32)
    sysProcTable := s.readWord (prcb + 36#32)
    faultTable := s.readWord (prcb + 40#32) }

theorem State.loadPrcb_ok {prcb : Word} (segTable : Word) (h : s.readable prcb 44 = true) :
    s.loadPrcb segTable prcb = .ok (s.prcbLoaded segTable prcb) := by
  have word : ∀ k, k + 4 ≤ 44 → s.loadWord (prcb + BitVec.ofNat 32 k) = .ok (s.readWord (prcb + BitVec.ofNat 32 k)) :=
    fun k hk => State.loadWord_ok (State.readable_part h k 4 hk)
  rw [State.loadPrcb, word 4 (by decide), Eff.bind_ok, word 16 (by decide), Eff.bind_ok, word 20 (by decide),
    Eff.bind_ok, word 24 (by decide), Eff.bind_ok, word 32 (by decide), Eff.bind_ok, word 36 (by decide), Eff.bind_ok,
    word 40 (by decide), Eff.map_ok]
  rfl

theorem State.followImage_ok (h : s.readable 0#32 16 = true) (hp : s.readable (s.readWord 4#32) 44 = true) :
    s.followImage =
      .ok ((s.prcbLoaded (s.readWord 0#32) (s.readWord 4#32)).startAt (s.readWord 12#32)) := by
  have word : ∀ k, k + 4 ≤ 16 → s.loadWord (BitVec.ofNat 32 k) = .ok (s.readWord (BitVec.ofNat 32 k)) :=
    fun k hk => State.loadWord_ok (by simpa using State.readable_part h k 4 hk)
  rw [State.followImage, word 0 (by decide), Eff.bind_ok, word 4 (by decide), Eff.bind_ok, word 12 (by decide),
    Eff.bind_ok, State.loadPrcb_ok _ hp, Eff.map_ok]

/-- A processor that starts under a PRCB (R581, R583). -/
theorem startAt_begins (s : State) (segs base start : Word) :
    Begins s segs base start ((s.prcbLoaded segs base).startAt start) := by
  refine ⟨rfl, rfl, rfl, rfl, rfl, rfl, rfl, rfl, rfl, rfl, ?_, rfl, rfl, rfl, rfl, rfl⟩
  simp [State.contents, isGlobal, bankIndex, State.startAt, State.prcbLoaded]

/-- Where every word is readable, every range is. -/
theorem readable_of_words (h : ∀ x, s.readable x 4 = true) (x : Word) (n : Nat) : s.readable x n = true := by
  rw [State.readable_iff]
  intro i _
  have := (s.readable_iff 4 (x + BitVec.ofNat 32 i)).1 (h _) 0 (by decide)
  rwa [BitVec.add_zero] at this

/-- The processor stops where the self test fails or the initial memory image is not in order (R581, R582). -/
theorem boot_stops {selfTest : Bool} {mem : Memory} {map : List MemRange}
    (h : ¬ (selfTest = true ∧ ({ State.reset with mem := mem, memMap := map } : State).readable 0#32 32 = true ∧
      checksumFrom 0 0 (({ State.reset with mem := mem, memMap := map } : State).readWords 0#32 8) = 0)) :
    boot selfTest mem map = { State.reset with mem := mem, memMap := map, proc := .stopped } := if_neg h

/-- Otherwise it follows the image (R583). -/
theorem boot_follows {mem : Memory} {map : List MemRange}
    (hr : ({ State.reset with mem := mem, memMap := map } : State).readable 0#32 32 = true)
    (hsum : checksumFrom 0 0 (({ State.reset with mem := mem, memMap := map } : State).readWords 0#32 8) = 0)
    (himage : State.followImage { State.reset with mem := mem, memMap := map } = .ok t) : boot true mem map = t :=
  (if_pos ⟨rfl, hr, hsum⟩).trans (by rw [himage])

/-- Settles O10: the state starts under the PRCB that the image names, or stops. -/
theorem bootFollowsMemoryImage : Obligations.BootFollowsMemoryImage := by
  intro mem map s w
  refine ⟨?_, fun h => ?_⟩
  · rw [boot_stops (by simp)]
  · have all := readable_of_words h
    refine ⟨fun hsum => ?_, fun hsum => ?_⟩
    · rw [boot_stops fun hc => hsum hc.2.2]
    · have run : boot true mem map = (s.prcbLoaded (w 0) (w 1)).startAt (w 3) :=
        boot_follows (all _ _) hsum (State.followImage_ok (s := s) (all _ _) (all _ _))
      rw [run]
      exact ⟨startAt_begins s _ _ _, rfl, rfl, rfl⟩

/-! ### Messages (R540, R541) -/

/-- The state a message finds: the instruction has reported success and moved on (R371). -/
def State.sending (s : State) : State := { s with ac := { s.ac with cc := 0b010 }, ip := s.ip + 4#32 }

/-- Four words moved to the message address are a message (R540). -/
theorem synmovq_message {x y : Src} (hd : srcVal s x &&& 0xFFFFFFF0#32 = 0xFF000010#32)
    (hr : s.readable (srcVal s y) 16 = true) :
    let w := fun k : Nat => s.readWord (srcVal s y + BitVec.ofNat 32 (4 * k))
    exec (.synmovq x y) s = s.commit (s.sending.receiveIac (messageOf (w 0) (w 1) (w 2) (w 3))) := by
  intro w
  have run : exec (.synmovq x y) s = synchronousMove s 4 (srcVal s x &&& 0xFFFFFFF0#32) y := rfl
  rw [run, synchronousMove, State.loadWords_ok hr, State.commitThen_ok, if_pos (show _ = iacAddress from hd),
    State.readWords_eq_map]
  rfl

section
variable {m : IacMessage}

theorem State.receiveIac_interrupt (h : m.type = 0x40) :
    s.receiveIac m = if m.field1.toNat < 8 then .raise .iac else s.interruptArrives m.field1 := by
  simp only [State.receiveIac, h]
theorem State.receiveIac_check (h : m.type = 0x41) : s.receiveIac m = s.checkPending := by
  simp only [State.receiveIac, h]
theorem State.receiveIac_store (h : m.type = 0x80) : s.receiveIac m = .ok (s.writeWords m.field3 [s.segTable, s.prcb]) := by
  simp only [State.receiveIac, h]
  rfl
theorem State.receiveIac_restart (h : m.type = 0x81) : s.receiveIac m = s.restart m.field3 m.field4 := by
  simp only [State.receiveIac, h]
theorem State.receiveIac_purge (h : m.type = 0x89) : s.receiveIac m = .ok { s with stale := [] } := by
  simp only [State.receiveIac, h]
theorem State.receiveIac_breakpoint (h : m.type = 0x8F) : s.receiveIac m = .ok (s.setBreakpoint m) := by
  simp only [State.receiveIac, h]
theorem State.receiveIac_stop (h : m.type = 0x91) : s.receiveIac m = .ok { s with proc := .stopped } := by
  simp only [State.receiveIac, h]
theorem State.receiveIac_image (h : m.type = 0x92) : s.receiveIac m = s.followImage := by
  simp only [State.receiveIac, h]
theorem State.receiveIac_reinitialize (h : m.type = 0x93) :
    s.receiveIac m = s.reinitialize m.field3 m.field4 m.field5 := by
  simp only [State.receiveIac, h]

theorem State.receiveIac_other (h : m.type ∉ [0x40, 0x41, 0x80, 0x81, 0x89, 0x8F, 0x91, 0x92, 0x93]) :
    s.receiveIac m = .refuse (.iacUnspecified m.type) := by
  unfold State.receiveIac
  split
  case h_10 => rfl
  all_goals rename_i hm; exact absurd (by rw [hm]; decide) h

end

/-- The words a message finds are those of the state that sends it. -/
theorem sending_readWord (s : State) (a : Word) : s.sending.readWord a = s.readWord a := rfl

theorem sending_prcbLoaded_begins (s : State) (segs base start : Word) :
    Begins s segs base start ((s.sending.prcbLoaded segs base).startAt start) := by
  have h := startAt_begins s.sending segs base start
  exact ⟨h.ip, h.segTable, h.prcb, h.procControls, h.dispatchPort, h.intTable, h.intStack, h.region3, h.sysProcTable,
    h.faultTable, h.fp, h.pctl, h.proc, h.cached, h.stale, h.mem⟩

theorem setBreakpoint_cases (m : IacMessage) (s : State) :
    (s.setBreakpoint m = { s with bp1 := breakpointOf m.field3 }) ∨
      s.setBreakpoint m = { s with bp0 := breakpointOf m.field3 } := by
  unfold State.setBreakpoint
  split
  · exact .inl rfl
  · exact .inr rfl

/-- Settles O41: one case for each type of message. -/
theorem messagesToTheProcessorItself : Obligations.MessagesToTheProcessorItself := by
  intro s x y hd hr w type vector sent run gives bp
  have hrun : run = s.commit (s.sending.receiveIac (messageOf (w 0) (w 1) (w 2) (w 3))) := synmovq_message hd hr
  have hok : ∀ {t}, s.sending.receiveIac (messageOf (w 0) (w 1) (w 2) (w 3)) = .ok t → run = .next t :=
    fun h => hrun.trans (congrArg s.commit h)
  refine ⟨fun ht => ?_, fun ht => ?_, fun ht => ?_, fun ht hram => ?_, fun ht hp => ?_, fun ht h0 hp => ?_, fun ht hp => ?_,
    fun ht h8 => ?_, fun ht h8 => ⟨fun hs hp => ?_, fun hs hread hram => ?_⟩, fun ht => ⟨fun u hu => ?_, fun hi h0 => ?_⟩,
    fun ht => ?_⟩
  · exact ⟨_, hok (State.receiveIac_stop ht), rfl, fun _ => rfl, rfl, rfl, rfl⟩
  · exact ⟨_, hok (State.receiveIac_purge ht), rfl, fun _ => rfl, rfl, rfl, rfl, rfl⟩
  · refine ⟨_, hok (State.receiveIac_breakpoint ht), ?_⟩
    rcases setBreakpoint_cases (messageOf (w 0) (w 1) (w 2) (w 3)) s.sending with h | h <;> rw [h]
    · exact ⟨rfl, fun _ => rfl, rfl, rfl, rfl, .inr ⟨rfl, rfl⟩⟩
    · exact ⟨rfl, fun _ => rfl, rfl, rfl, rfl, .inl ⟨rfl, rfl⟩⟩
  · have st := State.writeWords_memStep [s.segTable, s.prcb] (w 1) s.sending
    have back := State.readWords_writeWords [s.segTable, s.prcb] (w 1) s.sending (by simp) hram
    simp only [List.length_cons, List.length_nil, State.readWords, List.cons.injEq, and_true] at back
    refine ⟨s.sending.writeWords (w 1) [s.segTable, s.prcb], hok (State.receiveIac_store ht), st.ac,
      st.contents, st.ip, st.pctl, back.1, back.2, ?_⟩
    exact State.writeWords_sameOutside [s.segTable, s.prcb] (w 1) s.sending
  · have e : s.sending.restart (w 1) (w 2) = .ok { s.sending.prcbLoaded (w 1) (w 2) with
        proc := .idle, stale := [], restarted := true } := by
      rw [State.restart, State.loadPrcb_ok (s := s.sending) (w 1) hp, Eff.map_ok]
    exact ⟨_, hok ((State.receiveIac_restart ht).trans e), rfl, fun _ => rfl, rfl, rfl, rfl, rfl,
      rfl, rfl, rfl, rfl, rfl, rfl⟩
  · exact ⟨_, hok ((State.receiveIac_image ht).trans (State.followImage_ok (s := s.sending) h0 hp)),
      sending_prcbLoaded_begins s _ _ _, rfl⟩
  · have e : s.sending.reinitialize (w 1) (w 2) (w 3) = .ok { (s.sending.prcbLoaded (w 2) (w 1)).startAt (w 3) with
        restarted := virtualMode (s.sending.prcbLoaded (w 2) (w 1)).procControls } := by
      rw [State.reinitialize, State.loadPrcb_ok (s := s.sending) (w 2) hp, Eff.map_ok]
    have h := sending_prcbLoaded_begins s (w 2) (w 1) (w 3)
    exact ⟨_, hok ((State.receiveIac_reinitialize ht).trans e),
      ⟨h.ip, h.segTable, h.prcb, h.procControls, h.dispatchPort, h.intTable, h.intStack, h.region3, h.sysProcTable,
        h.faultTable, h.fp, h.pctl, h.proc, h.cached, h.stale, h.mem⟩, Iff.rfl⟩
  · have e : s.sending.receiveIac (messageOf (w 0) (w 1) (w 2) (w 3)) = .raise .iac :=
      (State.receiveIac_interrupt ht).trans (if_pos h8)
    exact hrun.trans (congrArg s.commit e)
  · refine ⟨s.sending.inHandler vector (s.ip + 4#32), State.interruptEntry_ok (s := sent) _ hp, ?_⟩
    have e : s.sending.interruptArrives vector = .ok (s.sending.inHandler vector (s.ip + 4#32)) :=
      (State.interruptArrives_serves (s := s.sending) h8 hs).trans (State.interruptEntry_ok (s := s.sending) _ hp)
    exact hok ((State.receiveIac_interrupt ht).trans ((if_neg (show ¬ vector.toNat < 8 by omega)).trans e))
  · have e : s.sending.interruptArrives vector = .ok (s.sending.posted vector) :=
      State.interruptArrives_posts (s := s.sending) h8 hs hread
    have st := State.posted_memStep vector s.sending
    have hposted := State.posted_spec (s := s.sending) vector hram
    refine ⟨s.sending.posted vector, ?_, st.ac, st.contents, st.ip, st.pctl,
      ⟨hposted.priority, hposted.vector, hposted.bytes⟩⟩
    exact hok ((State.receiveIac_interrupt ht).trans ((if_neg (show ¬ vector.toNat < 8 by omega)).trans e))
  · exact hok ((State.receiveIac_check ht).trans hu)
  · exact ⟨s.sending, hok ((State.receiveIac_check ht).trans (checkPending_none (s := s.sending) hi h0)), rfl,
      fun _ => rfl, rfl, rfl, fun _ => rfl, fun _ => rfl, rfl, by constructor <;> rfl⟩
  · rw [hrun, State.receiveIac_other ht]
    rfl

end Sys2Proof.Machine
end

section
/-! SUPPORT. Trace events, control words, synchronous transfers, and what physical mode refuses (R361 to R375, R390,
R560). -/

namespace Sys2Proof.Machine

variable {s t : State}

/-! ### Marks and trace events -/

/-- The breakpoint mode among the trace modes. -/
theorem breakpointMode (tc : Word) : traceModes tc &&& evBreakpoint ≠ 0 ↔ tc.getLsbD 7 = true := by
  rw [show evBreakpoint = BitVec.twoPow 8 7 from rfl, traceModes_and_twoPow tc (by decide) (by decide)]
  cases tc.getLsbD 7 <;> decide

/-- A trace fault an instruction raises itself (R361, R365, R560). -/
theorem markEvent_eq (s : State) :
    let events := (s.traced &&& s.tctl.extractLsb' 0 8 &&& 0xFE#8) ||| 0x80#8
    markEvent s = takeFault (.trace events) s.ip (s.ip + 4#32)
      { s with
        ip := s.ip + 4#32
        tctl := s.tctl ||| (events.setWidth 32 <<< 16)
        pctl := s.pctl ||| BitVec.twoPow 32 10 } := by
  intro events
  have e : s.traced &&& traceModes s.tctl ||| evBreakpoint = events := by
    simp only [events, traceModes, BitVec.and_assoc]
    rfl
  rw [markEvent, e]
  rfl

/-- Settles O35. -/
theorem marksAndSynchronize : Obligations.MarksAndSynchronize := by
  intro s
  have quiet : Gives (.next (s.advance 4#32)) (Goes s (s.ip + 4#32) 0#8 s.ac) := ⟨_, rfl, goes_advance s s.ac⟩
  have mark : exec .mark s =
      if s.te = true ∧ traceModes s.tctl &&& evBreakpoint ≠ 0 then markEvent s else .next (s.advance 4#32) := rfl
  have fmark : exec .fmark s = if s.te then markEvent s else .next (s.advance 4#32) := rfl
  simp only [breakpointMode] at mark
  refine ⟨quiet, fun h => ?_, fun h1 h2 => ?_, fun h => ?_, fun h => ?_⟩ <;> beta_reduce
  · rw [mark, if_neg fun c => by rcases h with h | h <;> simp only [h, Bool.false_eq_true, false_and, and_false] at c]
    exact quiet
  · rw [mark, if_pos ⟨h1, h2⟩]
    exact markEvent_eq s
  · rw [fmark, h]
    exact quiet
  · rw [fmark, if_pos h]
    exact markEvent_eq s

theorem breakpointAt_iff (s : State) (a : Word) : s.breakpointAt a = true ↔
    (s.bp0.enabled = true ∧ s.bp0.addr = a) ∨ (s.bp1.enabled = true ∧ s.bp1.addr = a) := by
  rw [State.breakpointAt, Bool.or_eq_true, Bool.and_eq_true, Bool.and_eq_true, beq_iff_eq, beq_iff_eq]

/-- Settles O49. -/
theorem traceEventsAreReported : Obligations.TraceEventsAreReported := by
  intro s t events traced
  have e : t.traced &&& traceModes s.tctl = events := by simp only [events, traceModes, BitVec.and_assoc]
  refine ⟨fun h => State.finish_quiet (by rwa [e]), fun h1 h2 => ?_, ?_, ?_⟩
  · simp only [State.finish, traceFinish, e]
    rw [if_pos ⟨h1, h2⟩]
    rfl
  · simp only [State.begin]
    split <;> rfl
  · rw [← breakpointAt_iff]
    simp only [State.begin]
    split
    case isTrue h => exact ⟨fun _ => h, fun _ => rfl⟩
    case isFalse h => exact ⟨fun h' => absurd h' (by decide), fun h' => absurd h' h⟩

/-! ### Control words -/

/-- Settles O36. -/
theorem controlWordsAreModifiedUnderAMask : Obligations.ControlWordsAreModifiedUnderAMask := by
  intro s x y r merged
  refine ⟨⟨_, ArithControls.toWord_ofWord _, _, rfl, writes_of_setReg r s.ac.toWord 4#32 _⟩, _, rfl, ?_⟩
  have w := writes_of_setReg_ac (s := s) r s.tctl 4#32
  have k := w.special
  exact ⟨⟨w.group.written, w.group.others⟩, rfl, w.ip, w.ac, w.fps, w.bytes, k.cached, k.pctl, rfl, k.proc,
    k.procControls, k.segTable, k.prcb, k.dispatchPort, k.intTable, k.intStack, k.region3, k.sysProcTable, k.faultTable,
    k.icr, k.bp0, k.bp1, k.memMap, k.restarted, k.env, k.serial⟩

/-- The processor state stays when PC.st does. -/
theorem relabel_same {old new : Word} (h : new.extractLsb' 13 2 = old.extractLsb' 13 2) (p : ProcState) :
    relabel old new p = p := by
  have e : interruptedOf new = interruptedOf old := by rw [interruptedOf, interruptedOf, h]
  unfold relabel
  exact if_pos e

/-- Settles O37. -/
theorem processControlsAreSupervisorOnly : Obligations.ProcessControlsAreSupervisorOnly := by
  intro s x y r mask new written
  let u : State := { s.setReg r s.pctl with pctl := new, proc := relabel s.pctl new s.proc }.advance 4#32
  have w := writes_of_setReg_ac (s := s) r s.pctl 4#32
  have k := w.special
  have hu : written u := ⟨⟨w.group.written, w.group.others⟩, rfl, w.ip, w.ac, w.fps, w.bytes,
    fun h => relabel_same h s.proc, k.cached, rfl, k.tctl, rfl, k.procControls, k.segTable, k.prcb, k.dispatchPort,
    k.intTable, k.intStack, k.region3, k.sysProcTable, k.faultTable, k.icr, k.bp0, k.bp1, k.memMap, k.restarted, k.env,
    k.serial⟩
  have run : exec (.modpc x y (.reg r)) s = if mask = 0#32 then s.result (.reg r) s.pctl
      else if s.supervisor = false then takeFault .mismatch s.ip s.ip s
      else if priorityOf new < priorityOf s.pctl then thenCheckPending u else .next u := rfl
  refine ⟨fun h0 => ?_, fun h0 hs => ?_, fun h0 hs => ⟨fun hp => ?_, fun hp => ?_⟩⟩
  · rw [run, if_pos h0]
    exact s.result_writes r _
  · rw [run, if_neg h0, if_pos hs]
  · rw [run, if_neg h0, if_neg (by rw [hs]; decide), if_neg (show ¬ priorityOf new < priorityOf s.pctl by
      rw [priorityOf, priorityOf]; omega)]
    exact ⟨u, rfl, hu⟩
  · rw [run, if_neg h0, if_neg (by rw [hs]; decide), if_pos (show priorityOf new < priorityOf s.pctl from hp)]
    refine ⟨⟨u, hu, rfl⟩, fun hr hz => ⟨u, thenCheckPending_none ?_ ?_, hu⟩⟩
    · rw [State.readable_congr (s := s) (t := u) k.memMap, show u.intTable = s.intTable from k.intTable]
      exact hr
    · rw [State.readWord_congr (s := s) (t := u) w.bytes, show u.intTable = s.intTable from k.intTable]
      exact hz

/-! ### Synchronous transfers -/

theorem State.writeFreeWords_sameOutside (n : Nat) : ∀ (a : Word) (k : Nat) (s : State),
    State.SameOutside a (4 * n) s (s.writeFreeWords a k n) := by
  induction n with
  | zero => exact fun a _ s => .refl a 0 s
  | succ n ih =>
    intro a k s x hx
    rw [State.writeFreeWords]
    refine (ih (a + 4#32) k _ x ?_).trans (State.writeFreeWord_sameOutside s a k (300 + n) x ?_) <;> bv_omega

/-- A synchronous move of some words (R371 to R373). -/
theorem synchronousMove_outcome (s : State) (n : Nat) (hn : n ≤ 4) (d : Word) (y : Src) :
    let from' := srcVal s y
    let bs := ((List.range n).map fun k => s.readWord (from' + BitVec.ofNat 32 (4 * k))).flatMap bytesOfWord
    (s.readable from' (4 * n) = false → synchronousMove s n d y = takeFault .badAccess s.ip s.ip s) ∧
    (s.readable from' (4 * n) = true → d ≠ 0xFF000010#32 →
      (n = 1 → d = 0xFF000004#32 → Gives (synchronousMove s n d y) fun t => t.icr = s.readWord from' ∧
        t.ip = s.ip + 4#32 ∧ t.ac = { s.ac with cc := 0b010 } ∧ (∀ a, t.readByte a = s.readByte a) ∧
        SameRegisters s { t with icr := s.icr }) ∧
      (¬ (n = 1 ∧ d = 0xFF000004#32) →
        (s.readable d (4 * n) = true → Gives (synchronousMove s n d y) (Stores s d bs { s.ac with cc := 0b010 } 4#32)) ∧
        (s.readable d (4 * n) = false → Gives (synchronousMove s n d y) fun t => SameRegisters s t ∧ t.ip = s.ip + 4#32 ∧
          t.ac = { s.ac with cc := 0b000 } ∧ State.SameOutside d (4 * n) s t))) := by
  intro from' bs
  have len : (s.readWords from' n).length = n := State.length_readWords ..
  refine ⟨fun hr => ?_, fun hr hd => ?_⟩
  · rw [synchronousMove, State.loadWords_bad hr, State.commitThen_raise]
  · have run : synchronousMove s n d y = if n = 1 ∧ d = icrAddress then
          .next ({ s.setCc (foundCc true) with icr := (s.readWords from' n).getD 0 0 }.advance 4#32)
        else .next ((synWrite d (s.readWords from' n) s).advance 4#32) := by
      rw [synchronousMove, State.loadWords_ok hr, State.commitThen_ok]
      exact if_neg hd
    rw [run]
    refine ⟨fun h1 hicr => ?_, fun h => ?_⟩
    · subst h1
      rw [if_pos ⟨rfl, hicr⟩]
      exact ⟨_, rfl, rfl, rfl, rfl, fun _ => rfl, fun _ => rfl, rfl, by constructor <;> rfl⟩
    · rw [if_neg (show ¬ (n = 1 ∧ d = icrAddress) from h), synWrite, len]
      refine ⟨fun hw => ?_, fun hw => ?_⟩
      · have st := stores_of_writeBytes s d bs (by
          simp only [bs, length_flatMap_bytesOfWord, List.length_map, List.length_range]; omega)
          { s.ac with cc := 0b010 } 4#32
        rw [if_pos hw, State.writeWords_eq_writeBytes, State.readWords_eq_map]
        have e : (s.writeBytes d bs).ac = s.ac := (State.writeBytes_memStep bs d s).ac
        refine ⟨_, rfl, ?_⟩
        change Stores s d bs _ 4#32 (((s.writeBytes d bs).setCc (foundCc true)).advance 4#32)
        rw [State.setCc, e]
        exact st
      · rw [hw]
        have st := State.writeFreeWords_memStep n d s.serial s
        have rest := st.sameRegisters
        have k := rest.special
        have e : (s.writeFreeWords d s.serial n).ac = s.ac := st.ac
        refine ⟨_, rfl, ⟨rest.regs, rest.fps, k.cached, k.pctl, k.tctl, k.proc, k.procControls, k.segTable, k.prcb,
          k.dispatchPort, k.intTable, k.intStack, k.region3, k.sysProcTable, k.faultTable, k.icr, k.bp0, k.bp1, k.memMap,
          k.restarted, k.env, k.serial⟩, congrArg (· + 4#32) st.ip,
          congrArg (fun a : ArithControls => ({ a with cc := 0b000 } : ArithControls)) e,
          State.writeFreeWords_sameOutside n d s.serial s⟩

/-- Settles O40. -/
theorem synchronousTransfers : Obligations.SynchronousTransfers := by
  intro s x y r
  refine ⟨synchronousMove_outcome s 1 (by decide) _ y, synchronousMove_outcome s 2 (by decide) _ y,
    synchronousMove_outcome s 4 (by decide) _ y, fun h => ?_, fun h hr => ?_, fun h hr => ?_⟩
  all_goals
    have run : exec (.synld x (.reg r)) s = if srcVal s x &&& 0xFFFFFFFC#32 = icrAddress then
        s.resultCc (.reg r) s.icr (foundCc true)
      else if s.readable (srcVal s x &&& 0xFFFFFFFC#32) 4 then
        s.resultCc (.reg r) (s.readWord (srcVal s x &&& 0xFFFFFFFC#32)) (foundCc true)
      else s.resultCc (.reg r) (Config.freeWord s.serial 106) (foundCc false) := rfl
  · rw [run, if_pos (show _ = icrAddress from h)]
    exact s.resultCc_writes r _ _
  · rw [run, if_neg (show ¬ _ = icrAddress from h), if_pos hr]
    exact s.resultCc_writes r _ _
  · rw [run, if_neg (show ¬ _ = icrAddress from h), hr]
    exact ⟨_, s.resultCc_writes r _ _⟩

/-! ### Process management -/

/-- Settles O42. -/
theorem processManagementOutsideVirtualMode : Obligations.ProcessManagementOutsideVirtualMode := by
  intro s x y z d r
  exact ⟨rfl, rfl, rfl, rfl, rfl, rfl, rfl, rfl, rfl, rfl, rfl, rfl, fun h =>
    ⟨_, _, s.resultWords_writes r _ (by simp) (startsGroup_iff.2 h)⟩⟩

end Sys2Proof.Machine
end

section
/-! SUPPORT. Stored words and fetched code, strings and decimal digits (R81, R82, R120, R411 to R417, D4, D5). -/

namespace Sys2Proof.Machine

variable {s t : State}

/-! ### Strings -/

/-- A copied byte: RAM holds the source's byte at the destination, every other byte reads as before. -/
theorem State.readByte_copyByte (hwf : s.mem.wf = true) (d a x : Word) : (s.copyByte d a).readByte x =
    if x = d ∧ kindAt s.memMap d.toNat = .ram then s.readByte a else s.readByte x := by
  unfold State.copyByte
  split
  case h_1 hk hf =>
    rw [State.readByte_writeFreeByte, State.readByte_hole hwf (by rw [hk]; decide) hf]
  case h_2 hk hf =>
    rw [State.readByte_writeFreeByte, State.readByte_hole hwf (by rw [hk]; decide) hf]
  case h_3 => exact State.readByte_writeByte s d x _

theorem State.copyByte_sameOutside (s : State) (d a : Word) : State.SameOutside d 1 s (s.copyByte d a) := by
  unfold State.copyByte
  split
  case h_1 => exact State.writeFreeByte_sameOutside s d _
  case h_2 => exact State.writeFreeByte_sameOutside s d _
  case h_3 => exact State.writeByte_sameOutside s d _

/-- A store to the first byte of a range and then stores to the rest of it. -/
theorem State.SameOutside.cons {u : State} {d : Word} {n : Nat} (hn : n < 2 ^ 32) (h : State.SameOutside d 1 s t)
    (k : State.SameOutside (d + 1#32) n t u) : State.SameOutside d (n + 1) s u :=
  (h.part (by simp)).trans fun x hx => k x (by bv_omega)

theorem State.copyUp_sameOutside (n : Nat) : ∀ (d a : Word) (s : State), n < 2 ^ 32 →
    State.SameOutside d n s (s.copyUp d a n) := by
  induction n with
  | zero => exact fun d a s _ => .refl d 0 s
  | succ n ih => exact fun d a s hn => (State.copyByte_sameOutside s d a).cons (by omega) (ih _ _ _ (by omega))

theorem State.copyDown_sameOutside (n : Nat) : ∀ (s : State) (d a : Word), n < 2 ^ 32 →
    State.SameOutside d n s (s.copyDown d a n) := by
  induction n with
  | zero => exact fun s d a _ => .refl d 0 s
  | succ n ih =>
    intro s d a hn
    refine ((State.copyByte_sameOutside s (d + BitVec.ofNat 32 n) (a + BitVec.ofNat 32 n)).part ?_).trans
      ((ih _ d a (by omega)).part ?_) <;> bv_omega

theorem State.freeBytes_sameOutside (n : Nat) : ∀ (d : Word) (s : State), n < 2 ^ 32 →
    State.SameOutside d n s (s.freeBytes d n) := by
  induction n with
  | zero => exact fun d s _ => .refl d 0 s
  | succ n ih => exact fun d s hn => (State.writeFreeByte_sameOutside s d _).cons (by omega) (ih _ _ (by omega))

theorem State.fillBytes_sameOutside (v : Word) (n : Nat) : ∀ (d : Word) (k : Nat) (s : State), n < 2 ^ 32 →
    State.SameOutside d n s (s.fillBytes v d k n) := by
  induction n with
  | zero => exact fun d k s _ => .refl d 0 s
  | succ n ih => exact fun d k s hn => (State.writeByte_sameOutside s d _).cons (by omega) (ih _ _ _ (by omega))

/-- The bytes of RAM among the `n` from `d` up are `byte 0`, `byte 1` and so on. -/
def State.FilledWith (d : Word) (n : Nat) (byte : Nat → Byte) (s : State) : Prop :=
  ∀ k < n, kindAt s.memMap (d + BitVec.ofNat 32 k).toNat = .ram → s.readByte (d + BitVec.ofNat 32 k) = byte k

/-- Bytes filled from the second one up, by stores that leave the first. -/
theorem State.FilledWith.cons {d : Word} {n : Nat} {byte : Nat → Byte} (hn : n < 2 ^ 32)
    (h0 : kindAt s.memMap d.toNat = .ram → s.readByte d = byte 0) (hs : State.SameOutside (d + 1#32) n s t)
    (hm : t.memMap = s.memMap) (h : t.FilledWith (d + 1#32) n fun k => byte (k + 1)) : t.FilledWith d (n + 1) byte := by
  intro k hk
  cases k with
  | zero =>
    rw [BitVec.add_zero, hm, hs d (by bv_omega)]
    exact h0
  | succ k =>
    rw [add_ofNat_succ]
    exact h k (by omega)

theorem State.copyUp_fills (n : Nat) : ∀ (d a : Word) (s : State), s.mem.wf = true → n < 2 ^ 32 →
    (∀ k j, k < j → j < n → a + BitVec.ofNat 32 j ≠ d + BitVec.ofNat 32 k) →
    (s.copyUp d a n).FilledWith d n fun k => s.readByte (a + BitVec.ofNat 32 k) := by
  induction n with
  | zero => exact fun _ _ _ _ _ _ k hk => absurd hk (Nat.not_lt_zero k)
  | succ n ih =>
    intro d a s hwf hn apart
    have hm := State.copyByte_memStep d a s
    rw [State.copyUp]
    refine State.FilledWith.cons (s := s.copyByte d a) (by omega) (fun hk => ?_)
      (State.copyUp_sameOutside n _ _ _ (by omega))
      (State.copyUp_memStep n (d + 1#32) (a + 1#32) (s.copyByte d a)).memMap ?_
    · rw [hm.memMap] at hk
      rw [State.readByte_copyByte hwf, if_pos ⟨rfl, hk⟩, BitVec.add_zero]
    · intro k hk hr
      rw [ih _ _ _ (hm.wf hwf) (by omega) (fun k j hkj hj => ?_) k hk hr]
      · dsimp only
        rw [State.readByte_copyByte hwf, if_neg, ← add_ofNat_succ]
        intro h
        exact apart 0 (k + 1) (by omega) (by omega) (by rw [add_ofNat_succ, h.1, BitVec.add_zero])
      · rw [← add_ofNat_succ, ← add_ofNat_succ]
        exact apart (k + 1) (j + 1) (by omega) (by omega)

theorem State.copyDown_fills (d a : Word) (n : Nat) : ∀ s : State, s.mem.wf = true → n < 2 ^ 32 →
    (∀ k j, k < j → j < n → a + BitVec.ofNat 32 k ≠ d + BitVec.ofNat 32 j) →
    (s.copyDown d a n).FilledWith d n fun k => s.readByte (a + BitVec.ofNat 32 k) := by
  induction n with
  | zero => exact fun _ _ _ _ k hk => absurd hk (Nat.not_lt_zero k)
  | succ n ih =>
    intro s hwf hn apart k hk hr
    have hm := State.copyByte_memStep (d + BitVec.ofNat 32 n) (a + BitVec.ofNat 32 n) s
    rw [State.copyDown] at hr ⊢
    by_cases e : k = n
    · subst e
      rw [(State.copyDown_memStep ..).memMap, hm.memMap] at hr
      rw [State.copyDown_sameOutside k _ d a (by omega) _ (by bv_omega), State.readByte_copyByte hwf, if_pos ⟨rfl, hr⟩]
    · rw [ih _ (hm.wf hwf) (by omega) (fun k j h1 h2 => apart k j h1 (by omega)) k (by omega) hr]
      dsimp only
      rw [State.readByte_copyByte hwf, if_neg fun h => apart k n (by omega) (by omega) h.1]

theorem State.fillBytes_fills (v : Word) (n : Nat) : ∀ (d : Word) (k : Nat) (s : State), n < 2 ^ 32 →
    (s.fillBytes v d (k % 4) n).FilledWith d n fun i => byteOf v ((k + i) % 4) := by
  induction n with
  | zero => exact fun _ _ _ _ i hi => absurd hi (Nat.not_lt_zero i)
  | succ n ih =>
    intro d k s hn
    rw [State.fillBytes, show (k % 4 + 1) % 4 = (k + 1) % 4 by omega]
    refine State.FilledWith.cons (s := s.writeByte d (byteOf v (k % 4))) (by omega) (fun hk => ?_)
      (State.fillBytes_sameOutside v n _ _ _ (by omega)) (State.fillBytes_memStep ..).memMap ?_
    · rw [(State.writeByte_memStep ..).memMap] at hk
      rw [State.readByte_writeByte, if_pos ⟨rfl, hk⟩]
      rfl
    · have h := ih (d + 1#32) (k + 1) (s.writeByte d (byteOf v (k % 4))) (by omega)
      simpa only [Nat.add_assoc, Nat.add_comm 1] using h

/-- R411: what a string moved with its direction chosen leaves. -/
theorem State.moveString_fills {d a : Word} {n : Nat} (hwf : s.mem.wf = true) (hd : d.toNat + n ≤ 2 ^ 32)
    (ha : a.toNat + n ≤ 2 ^ 32) (hn : n < 2 ^ 32) :
    (s.moveString d a n).FilledWith d n fun k => s.readByte (a + BitVec.ofNat 32 k) := by
  unfold State.moveString
  split
  case isTrue h => exact State.copyDown_fills d a n s hwf hn fun k j h1 h2 => by bv_omega
  case isFalse h => exact State.copyUp_fills n d a s hwf hn fun k j h1 h2 => by bv_omega

theorem State.moveString_sameOutside (s : State) (d a : Word) {n : Nat} (hn : n < 2 ^ 32) :
    State.SameOutside d n s (s.moveString d a n) := by
  unfold State.moveString
  split
  case isTrue => exact State.copyDown_sameOutside n s d a hn
  case isFalse => exact State.copyUp_sameOutside n d a s hn

/-- The outcome of a string write: only its destination changes, and the ip. -/
theorem State.MemStep.movesOn {d : Word} {n : Nat} (h : s.MemStep t) (ho : State.SameOutside d n s t) :
    SameRegisters s (t.advance 4#32) ∧ (t.advance 4#32).ac = s.ac ∧ (t.advance 4#32).ip = s.ip + 4#32 ∧
      State.SameOutside d n s (t.advance 4#32) := by
  have r := h.sameRegisters
  refine ⟨⟨r.regs, r.fps, ?_⟩, h.ac, by rw [← h.ip]; rfl, ho⟩
  have k := r.special
  exact ⟨k.cached, k.pctl, k.tctl, k.proc, k.procControls, k.segTable, k.prcb, k.dispatchPort, k.intTable, k.intStack,
    k.region3, k.sysProcTable, k.faultTable, k.icr, k.bp0, k.bp1, k.memMap, k.restarted, k.env, k.serial⟩

theorem stringWrite_ok {a : Word} {n : Nat} (h : s.readable a n = true) :
    stringWrite s a n t = .next (t.advance 4#32) := by
  rw [stringWrite, if_pos h]; rfl

theorem stringWrite_bad {a : Word} {n : Nat} (h : s.readable a n = false) :
    stringWrite s a n t = takeFault .badAccess s.ip s.ip s := by
  rw [stringWrite, if_neg (by rw [h]; decide)]; rfl

/-- What `movqstr` leaves in memory (R412, U19). -/
def State.moveQuick (d a : Word) (n : Nat) (s : State) : State :=
  if stringsOverlap d a n then s.freeBytes d n else s.copyUp d a n

theorem State.moveQuick_memStep (d a : Word) (n : Nat) (s : State) : s.MemStep (s.moveQuick d a n) := by
  unfold State.moveQuick
  split
  case isTrue => exact State.freeBytes_memStep ..
  case isFalse => exact State.copyUp_memStep ..

theorem State.moveQuick_sameOutside (s : State) (d a : Word) {n : Nat} (hn : n < 2 ^ 32) :
    State.SameOutside d n s (s.moveQuick d a n) := by
  unfold State.moveQuick
  split
  case isTrue => exact State.freeBytes_sameOutside n d s hn
  case isFalse => exact State.copyUp_sameOutside n d a s hn

theorem State.moveQuick_fills {d a : Word} {n : Nat} (hwf : s.mem.wf = true) (hd : d.toNat + n ≤ 2 ^ 32)
    (ha : a.toNat + n ≤ 2 ^ 32) (hn : n < 2 ^ 32) (apart : d.toNat + n ≤ a.toNat ∨ a.toNat + n ≤ d.toNat) :
    (s.moveQuick d a n).FilledWith d n fun k => s.readByte (a + BitVec.ofNat 32 k) := by
  have h : stringsOverlap d a n = false := by
    rw [stringsOverlap, Bool.or_eq_false_iff, decide_eq_false_iff_not, decide_eq_false_iff_not]
    constructor <;> bv_omega
  rw [State.moveQuick, h, if_neg (by decide)]
  exact State.copyUp_fills n d a s hwf hn fun k j h1 h2 => by bv_omega

/-- Settles O43. -/
theorem stringsAreMovedAndFilled : Obligations.StringsAreMovedAndFilled := by
  intro s x y z hwf d a n gives
  have hn : n < 2 ^ 32 := (srcVal s z).isLt
  have hstr : exec (.movstr x y z) s = stringWrite s a n (s.moveString d a n) := rfl
  have hqstr : exec (.movqstr x y z) s = stringWrite s a n (s.moveQuick d a n) := rfl
  have done : ∀ (i : Instr) (t : State) (byte : Nat → Byte), exec i s = .next (t.advance 4#32) → s.MemStep t →
      State.SameOutside d n s t → t.FilledWith d n byte → gives i byte := fun i t byte he hm ho hf => by
    obtain ⟨h1, h2, h3, h4⟩ := hm.movesOn ho
    exact ⟨_, he, h1, h2, h3, h4, fun k hk hr => hf k hk (by rwa [hm.memMap])⟩
  refine ⟨fun hr hd ha => ⟨?_, fun apart => ?_⟩, fun hr i hi => ?_, fun hr => ⟨?_, ?_⟩, ?_⟩
  · exact done _ _ _ (hstr.trans (stringWrite_ok hr)) (State.moveString_memStep ..) (s.moveString_sameOutside d a hn)
      (State.moveString_fills hwf hd ha hn)
  · exact done _ _ _ (hqstr.trans (stringWrite_ok hr)) (State.moveQuick_memStep ..) (s.moveQuick_sameOutside d a hn)
      (State.moveQuick_fills hwf hd ha hn apart)
  · rcases List.mem_cons.1 hi with rfl | hi
    · exact ⟨_, hstr.trans (stringWrite_ok hr), (State.moveString_memStep ..).movesOn (s.moveString_sameOutside d a hn)⟩
    · rw [List.mem_singleton.1 hi]
      exact ⟨_, hqstr.trans (stringWrite_ok hr), (State.moveQuick_memStep ..).movesOn (s.moveQuick_sameOutside d a hn)⟩
  · exact hstr.trans (stringWrite_bad hr)
  · exact hqstr.trans (stringWrite_bad hr)
  · have hf := State.fillBytes_fills a n d 0 s hn
    simp only [Nat.zero_add] at hf
    exact done _ _ _ rfl (State.fillBytes_memStep ..) (State.fillBytes_sameOutside a n d 0 s hn) hf

/-! ### Strings compared -/

/-- `cmpstr` goes past bytes that it can read and that are equal. -/
theorem compareStrings_skip (s : State) (m : Nat) : ∀ (k : Nat) (a b : Word),
    (∀ i < k, (s.readable (a + BitVec.ofNat 32 i) 1 = true ∧ s.readable (b + BitVec.ofNat 32 i) 1 = true) ∧
      s.readByte (a + BitVec.ofNat 32 i) = s.readByte (b + BitVec.ofNat 32 i)) →
    compareStrings s a b (k + m) = compareStrings s (a + BitVec.ofNat 32 k) (b + BitVec.ofNat 32 k) m := by
  intro k
  induction k with
  | zero => intro a b _; rw [Nat.zero_add, BitVec.add_zero, BitVec.add_zero]
  | succ k ih =>
    intro a b h
    obtain ⟨⟨ha, hb⟩, he⟩ := h 0 (by omega)
    simp only [BitVec.add_zero] at ha hb he
    rw [Nat.add_right_comm, compareStrings, ha, hb, if_pos (by rfl), if_pos he, add_ofNat_succ a k, add_ofNat_succ b k]
    refine ih (a + 1#32) (b + 1#32) fun i hi => ?_
    have hi' := h (i + 1) (by omega)
    rwa [add_ofNat_succ a i, add_ofNat_succ b i] at hi'

theorem orderCc_of_ne {m n : Nat} : (m < n → orderCc (decide (m < n)) false = 0b100) ∧
    (n < m → orderCc (decide (m < n)) false = 0b001) :=
  ⟨fun h => by rw [decide_eq_true h]; rfl, fun h => by rw [decide_eq_false (by omega)]; rfl⟩

/-- Settles O44. -/
theorem stringsAreCompared : Obligations.StringsAreCompared := by
  intro s x y z a b n gives ready same
  have run : exec (.cmpstr x y z) s = s.commit ((compareStrings s (srcVal s x) (srcVal s y) n).map fun cc =>
      (s.setCc cc).advance 4#32) := rfl
  have done : ∀ c c', compareStrings s (srcVal s x) (srcVal s y) n = .ok c → c = c' → gives c' := fun c c' h e => by
    change Gives (exec (.cmpstr x y z) s) _
    rw [run, h, e, Eff.map_ok, State.commit_ok]
    exact s.resultOnlyCc_writes 0#5 c'
  have skip : ∀ k m, n = k + m → ready k → same k →
      compareStrings s (srcVal s x) (srcVal s y) n = compareStrings s (a k) (b k) m := fun k m e hr hs => by
    rw [e]
    exact compareStrings_skip s m k _ _ fun i hi => ⟨hr i hi, hs i hi⟩
  refine ⟨fun hr hs => done _ _ (skip n 0 rfl hr hs) rfl, fun k hk hs => ⟨fun hr => ?_, fun hr hbad => ?_⟩⟩
  · have at' := skip k (n - k - 1 + 1) (by omega) (fun i hi => hr i (by omega)) hs
    obtain ⟨ha, hb⟩ := hr k (by omega)
    have order : s.readByte (a k) ≠ s.readByte (b k) → compareStrings s (srcVal s x) (srcVal s y) n =
        .ok (orderCc (decide ((s.readByte (a k)).toNat < (s.readByte (b k)).toNat)) false) := fun hne => by
      rw [at', compareStrings, ha, hb, if_pos (by rfl), if_neg hne]
    refine ⟨fun h => done _ _ (order fun e => ?_) (orderCc_of_ne.1 h),
      fun h => done _ _ (order fun e => ?_) (orderCc_of_ne.2 h)⟩ <;> rw [e] at h <;> exact absurd h (Nat.lt_irrefl _)
  · have hno : (s.readable (a k) 1 && s.readable (b k) 1) = false := by
      rcases hbad with h | h <;> rw [h] <;> simp
    rw [run, skip k (n - k - 1 + 1) (by omega) hr hs, compareStrings, hno, if_neg (by decide)]
    rfl

/-! ### Decimal digits -/

/-- A digit in the low four bits of a word. -/
theorem digitWord (v : BitVec 28) (d : BitVec 4) : (v ++ d).extractLsb' 4 28 = v ∧ (v ++ d).extractLsb' 0 4 = d :=
  ⟨BitVec.extractLsb'_append_eq_left, BitVec.extractLsb'_append_eq_right⟩

/-- A carry in bit 1 of a condition code (R416). -/
theorem carryCode (c : Bool) : (0#1 ++ BitVec.ofBool c ++ 0#1 : BitVec 3) ∈ [0b000#3, 0b010#3] ∧
    (0#1 ++ BitVec.ofBool c ++ 0#1 : BitVec 3).getLsbD 1 = c := by
  cases c <;> decide

/-- What `daddc` and `dsubc` write: some digit and carry, the named ones where both nibbles are digits (R416, U21). -/
theorem decimalResult_writes (s : State) (x y : Src) (r : Reg) (digit : Nat) (carry : Bool) :
    ∃ v : Word, ∃ k ∈ [0b000#3, 0b010#3],
      Gives (decimalResult s x y (.reg r) digit carry) (Writes s r [v] { s.ac with cc := k } 4#32) ∧
      v.extractLsb' 4 28 = (srcVal s y).extractLsb' 4 28 ∧
      (((srcVal s x).extractLsb' 0 4).toNat ≤ 9 → ((srcVal s y).extractLsb' 0 4).toNat ≤ 9 →
        v.extractLsb' 0 4 = BitVec.ofNat 4 digit ∧ k.getLsbD 1 = carry) := by
  refine ⟨_, _, (carryCode _).1, s.resultCc_writes r _ _, (digitWord _ _).1, fun hx hy => ?_⟩
  rw [(digitWord _ _).2, (carryCode _).2, decide_eq_true hx, decide_eq_true hy]
  exact ⟨rfl, rfl⟩

/-- Settles O45. -/
theorem decimalOperations : Obligations.DecimalOperations := by
  intro s x y r a b c m n
  have hc : c ≤ 1 := Bool.toNat_le _
  refine ⟨s.resultCc_writes_eq r rfl ?_, fun i hi => ?_⟩
  · have digit : (decide (0x30 ≤ (a.extractLsb' 0 8).toNat) && decide ((a.extractLsb' 0 8).toNat ≤ 0x39)) = true ↔
        0x30#8 ≤ a.extractLsb' 0 8 ∧ a.extractLsb' 0 8 ≤ 0x39#8 := by
      rw [Bool.and_eq_true, decide_eq_true_eq, decide_eq_true_eq]
      exact Iff.rfl
    change foundCc (!(decide (0x30 ≤ (a.extractLsb' 0 8).toNat) && decide ((a.extractLsb' 0 8).toNat ≤ 0x39))) = _
    simp only [foundCc, Bool.not_eq_true', ← Bool.not_eq_true, ite_not, digit]
  · simp only [List.mem_cons, List.not_mem_nil, or_false] at hi
    rcases hi with rfl | rfl
    · obtain ⟨v, k, hk, hw, hv, hd⟩ := decimalResult_writes s x y r (if 9 < n + m + c then n + m + c - 10 else n + m + c)
        (decide (9 < n + m + c))
      refine ⟨v, k, hk, hw, hv, fun hm hn => ?_⟩
      obtain ⟨h1, h2⟩ := hd hm hn
      rw [h1, h2]
      refine ⟨?_, fun _ => ?_, fun h => by cases h⟩ <;> by_cases h : 9 < n + m + c <;>
        simp only [h, if_true, if_false, BitVec.toNat_ofNat, decide_true, decide_false, Bool.toNat_true,
          Bool.toNat_false] <;>
        omega
    · obtain ⟨v, k, hk, hw, hv, hd⟩ := decimalResult_writes s x y r
        (if 0 ≤ (n : Int) - m - 1 + c then ((n : Int) - m - 1 + c).toNat else ((n : Int) - m - 1 + c + 10).toNat)
        (decide (0 ≤ (n : Int) - m - 1 + c))
      refine ⟨v, k, hk, hw, hv, fun hm hn => ?_⟩
      obtain ⟨h1, h2⟩ := hd hm hn
      rw [h1, h2]
      refine ⟨?_, fun h => absurd h (by simp), fun _ => ?_⟩ <;> by_cases h : 0 ≤ (n : Int) - m - 1 + c <;>
        simp only [h, if_true, if_false, BitVec.toNat_ofNat, decide_true, decide_false, Bool.toNat_true,
          Bool.toNat_false] <;>
        omega

/-! ### Fetched code -/

theorem getD_cons_mem {α : Type} (x : α) (l : List α) (n : Nat) : (x :: l).getD n x ∈ x :: l := by
  rw [List.getD_eq_getElem?_getD]
  cases h : (x :: l)[n]? with
  | none => exact List.mem_cons_self
  | some y => exact List.mem_of_getElem? h

/-- A fetch of a readable word gives what the word holds or held (R120, D5). -/
theorem State.fetchWord_cases {a : Word} (h : s.readable a 4 = true) :
    ∃ x, s.fetchWord a = .ok x ∧ (x = s.readWord a ∨ ∃ o ∈ s.staleAt a, x = o.word.val) := by
  rw [State.fetchWord, State.loadWord_ok h, Eff.map_ok]
  refine ⟨_, rfl, ?_⟩
  split
  case h_1 => exact .inl rfl
  case h_2 =>
    rcases List.mem_cons.1 (getD_cons_mem (s.readWord a) (s.olderWords a (s.readWord a)) _) with e | hm
    · exact .inl e
    · obtain ⟨o, ho, e⟩ := List.mem_map.1 (List.mem_filter.1 hm).1
      exact .inr ⟨o, ho, e.symm⟩

/-- This step has noted what the word at an address was. -/
def State.Noted (s : State) (x : Word) : Prop := (s.staleAt x).head?.map OldWord.serial = some s.serial

theorem State.staleAt_congr {x b : Word} (h : x.toNat / 4 = b.toNat / 4) : s.staleAt x = s.staleAt b := by
  rw [State.staleAt, State.staleAt, h]

theorem State.staleAt_markStale_noted {b : Word} (h : s.Noted b) (x : Word) :
    (s.markStale b).staleAt x = s.staleAt x := by
  rw [State.staleAt, State.markStale_stale, show s.noteOld b = s.stale from if_pos h]
  rfl

theorem State.staleAt_markStale_new {b : Word} (h : ¬ s.Noted b) (x : Word) : (s.markStale b).staleAt x =
    if x.toNat / 4 = b.toNat / 4 then
      { serial := s.serial, word := s.readSlot (b &&& 0xFFFFFFFC#32) } :: s.staleAt b else s.staleAt x := by
  rw [State.staleAt, State.markStale_stale, show s.noteOld b = _ from if_neg h, keyGet_keyPut]
  split <;> rfl

theorem State.staleAt_writeByte (s : State) (b x : Word) (v : Byte) :
    (s.writeByte b v).staleAt x = s.staleAt x ∨
      kindAt s.memMap b.toNat = .ram ∧ (s.writeByte b v).staleAt x = (s.markStale b).staleAt x := by
  unfold State.writeByte
  split
  case h_1 h => exact .inr ⟨h, rfl⟩
  case h_2 => exact .inl rfl

theorem State.staleAt_writeByte_ram {b : Word} (h : kindAt s.memMap b.toNat = .ram) (x : Word) (v : Byte) :
    (s.writeByte b v).staleAt x = (s.markStale b).staleAt x := by
  unfold State.writeByte
  rw [h]
  rfl

/-- No store takes an old word away. -/
theorem State.staleAt_writeByte_mono (s : State) (b x : Word) (v : Byte) :
    ∀ o ∈ s.staleAt x, o ∈ (s.writeByte b v).staleAt x := by
  intro o ho
  rcases s.staleAt_writeByte b x v with e | ⟨-, e⟩
  · rwa [e]
  · rw [e]
    by_cases hn : s.Noted b
    · rwa [State.staleAt_markStale_noted hn]
    · rw [State.staleAt_markStale_new hn]
      split
      case isTrue h => exact List.mem_cons_of_mem _ (State.staleAt_congr h ▸ ho)
      case isFalse => exact ho

/-- The word an address is in is noted once a step. -/
theorem State.writeBytes_noted (bs : List Byte) : ∀ (b : Word) (s : State) (x : Word), s.Noted x →
    (∀ i < bs.length, (b + BitVec.ofNat 32 i).toNat / 4 = x.toNat / 4) → (s.writeBytes b bs).staleAt x = s.staleAt x := by
  induction bs with
  | nil => exact fun _ _ _ _ _ => rfl
  | cons v bs ih =>
    intro b s x hx hb
    have h0 : b.toNat / 4 = x.toNat / 4 := by simpa only [BitVec.add_zero] using hb 0 (by simp)
    have e : (s.writeByte b v).staleAt x = s.staleAt x := by
      rcases s.staleAt_writeByte b x v with e | ⟨-, e⟩
      · exact e
      · rw [e, State.staleAt_markStale_noted]
        rwa [State.Noted, State.staleAt_congr h0]
    have hn : (s.writeByte b v).Noted x := by
      rw [State.Noted, e, (State.writeByte_memStep ..).serial]
      exact hx
    rw [State.writeBytes, ih _ _ _ hn fun i hi => ?_, e]
    have hi' := hb (i + 1) (by simpa using hi)
    rw [add_ofNat_succ b i] at hi'
    exact hi'

theorem and_word_mask_of_aligned {a : Word} (h : a &&& 3#32 = 0#32) : a &&& 0xFFFFFFFC#32 = a ∧ a.toNat % 4 = 0 := by
  have e : a &&& 0xFFFFFFFC#32 = a := by
    calc a &&& 0xFFFFFFFC#32 = (a &&& 0xFFFFFFFC#32) ||| (a &&& 3#32) := by rw [h, BitVec.or_zero]
      _ = a &&& (0xFFFFFFFC#32 ||| 3#32) := BitVec.and_or_distrib_left.symm
      _ = a := BitVec.and_allOnes
  refine ⟨e, ?_⟩
  have h3 : (a &&& 3#32).toNat = 0 := by rw [h]; rfl
  rw [BitVec.toNat_and, show (3#32).toNat = 2 ^ 2 - 1 from rfl, Nat.and_two_pow_sub_one_eq_mod] at h3
  exact h3

/-- After a store to a word of RAM its old words are those before, and the word it was. -/
theorem State.staleAt_writeWord {a : Word} (w : Word) (hwf : s.mem.wf = true) (hr : s.ramAt a 4) (ha : a &&& 3#32 = 0#32) :
    ∀ o ∈ (s.writeWord a w).staleAt a, o ∈ s.staleAt a ∨ o.word.val = s.readWord a := by
  obtain ⟨hmask, h4⟩ := and_word_mask_of_aligned ha
  have h0 : kindAt s.memMap a.toNat = .ram := by simpa only [BitVec.add_zero] using hr 0 (by decide)
  let t := s.writeByte a (byteOf w 0)
  have e : t.staleAt a = (s.markStale a).staleAt a := State.staleAt_writeByte_ram h0 a _
  have ht : t.Noted a ∧ ∀ o ∈ t.staleAt a, o ∈ s.staleAt a ∨ o.word.val = s.readWord a := by
    rw [State.Noted, e, (State.writeByte_memStep a _ s).serial]
    by_cases hn : s.Noted a
    · rw [State.staleAt_markStale_noted hn]
      exact ⟨hn, fun o ho => .inl ho⟩
    · rw [State.staleAt_markStale_new hn, if_pos rfl, hmask]
      refine ⟨rfl, fun o ho => ?_⟩
      rcases List.mem_cons.1 ho with rfl | ho
      · exact .inr (State.readSlot_val hwf hr)
      · exact .inl ho
  have rest : (s.writeWord a w).staleAt a = t.staleAt a :=
    State.writeBytes_noted [byteOf w 1, byteOf w 2, byteOf w 3] (a + 1#32) t a ht.1 fun i hi => by
      rw [← add_ofNat_succ, BitVec.toNat_add, BitVec.toNat_ofNat]
      have := a.isLt
      simp only [List.length_cons, List.length_nil] at hi
      omega
  rw [rest]
  exact ht.2

/-- Settles O11. -/
theorem storedWordsReadBack : Obligations.StoredWordsReadBack := by
  refine ⟨fun s a ws hl hr => ?_, fun s a w hwf hr ha => ⟨fun h => ?_, ?_, fun msg hm => ?_⟩,
    fun s a b more hres hs he => ?_⟩
  · have back := State.readWords_writeWords ws a s (by omega) hr
    refine ⟨back, fun k hk => State.readByte_of_readWord ?_, State.writeWords_sameOutside ws a s⟩
    rw [State.readWords_eq_map] at back
    simpa [hk] using congrArg (fun l => l.getD k 0#32) back
  · rw [State.fetchWord_fresh h, State.loadWord_ok hr.readable]
  · have hm := State.writeWord_memStep a w s
    obtain ⟨x, hx, hc⟩ := State.fetchWord_cases (s := s.writeWord a w) (hr.congr hm.memMap).readable
    refine ⟨x, hx, ?_⟩
    rcases hc with rfl | ⟨o, ho, rfl⟩
    · exact .inl (State.readWord_writeWord_ram w hr)
    · rcases State.staleAt_writeWord w hwf hr ha o ho with h | h
      · exact .inr (.inr ⟨o, h, rfl⟩)
      · exact .inr (.inl h)
  · let t : State := { s.writeWord a w with stale := [] }
    have purged : t.loadWord a = (s.writeWord a w).loadWord a := rfl
    refine ⟨t, State.receiveIac_purge hm, rfl, ?_⟩
    rw [State.fetchWord_fresh rfl, purged,
      State.loadWord_ok (hr.congr (State.writeWord_memStep a w s).memMap).readable, State.readWord_writeWord_ram w hr]
  · let u := s.withEnv more
    have hm := State.writeByte_memStep a b u
    have reads : ∀ x : Word, kindAt s.memMap x.toNat ≠ .device →
        (u.externalWrite a b).readByte x = (u.writeByte a b).readByte x := fun x hx =>
      State.readByte_congr_notDevice (s := u.writeByte a b) (t := u.externalWrite a b) rfl rfl
        (by rw [hm.memMap]; exact hx)
    refine ⟨_, step_extWrite hres hs he, fun hk => ?_, fun x hx hd => ?_, fun x => u.staleAt_writeByte_mono a x b,
      hm.env, hm.ip, hm.ac, ?_⟩
    · rw [reads a (by rw [hk]; decide), State.readByte_writeByte, if_pos ⟨rfl, hk⟩]
    · rw [reads x hd, State.readByte_writeByte, if_neg fun h => hx.elim (absurd h.1) (absurd h.2)]
      rfl
    · have r := hm.sameRegisters
      have k := r.special
      exact ⟨r.regs, r.fps, ⟨k.cached, k.pctl, k.tctl, k.proc, k.procControls, k.segTable, k.prcb, k.dispatchPort,
        k.intTable, k.intStack, k.region3, k.sysProcTable, k.faultTable, k.icr, k.bp0, k.bp1, k.memMap, k.restarted,
        rfl, rfl⟩⟩

end Sys2Proof.Machine
end

section
/-! SUPPORT. Taking a fault: the record, the handler's frame, and what happens when it cannot be entered (R507 to R513). -/

namespace Sys2Proof.Machine

variable {s t u : State}

/-! ### Bytes and words near each other -/

theorem State.readable_append (s : State) (n : Nat) : ∀ (m : Nat) (a : Word),
    s.readable a (m + n) = (s.readable a m && s.readable (a + BitVec.ofNat 32 m) n)
  | 0, a => by simp [State.readable]
  | m + 1, a => by
    rw [Nat.add_right_comm, State.readable, State.readable_append s n m, State.readable, Bool.and_assoc, add_ofNat_succ]
    rfl

/-- A word that shares no byte with a range lies outside it. -/
theorem outside_of_ne {x a : Word} {n : Nat} (h : ∀ j < n, x ≠ a + BitVec.ofNat 32 j) :
    n ≤ (x - a).toNat := by
  by_contra hlt
  refine h (x - a).toNat (by omega) ?_
  rw [BitVec.ofNat_toNat, BitVec.setWidth_eq]
  bv_omega

theorem State.writeFreeWord_sameOutside_word {a x : Word} (n i : Nat)
    (h : ∀ j < 4, 4 ≤ (x + BitVec.ofNat 32 j - a).toNat) : (s.writeFreeWord a n i).readWord x = s.readWord x :=
  (State.writeFreeWord_sameOutside s a n i).readWord h

/-! ### The fault record (R512) -/

theorem State.writeRecordTail_sameOutside (n : Nat) : ∀ (a : Word) (k : Nat) (s : State),
    State.SameOutside a (4 * n) s (s.writeRecordTail a k n) := by
  induction n with
  | zero => exact fun a _ s => .refl a 0 s
  | succ n ih =>
    intro a k s x hx
    rw [State.writeRecordTail]
    refine (ih (a + 4#32) k _ x ?_).trans (State.writeFreeWord_sameOutside s a k (16 + n) x ?_) <;> bv_omega

/-- The defined words of a fault record, and the address above it. -/
theorem State.writeFaultRecord_words (top ip : Word) (r : FaultReport) (s : State) :
    let t := s.writeFaultRecord top ip r
    (s.ramAt (top - 4#32) 4 → t.readWord (top - 4#32) = ip) ∧
    (s.ramAt (top - 8#32) 4 → t.readWord (top - 8#32) = r.typeWord) ∧
    (s.ramAt (top - 12#32) 4 → t.readWord (top - 12#32) = s.ac.toWord) ∧
    (s.ramAt (top - 16#32) 4 → t.readWord (top - 16#32) = s.pctl) ∧
    (∀ w, r.override = some w → s.ramAt (top - 20#32) 4 → t.readWord (top - 20#32) = w) ∧
    State.SameOutside (top - 44#32) 44 s t := by
  intro t
  let s1 := s.writeWord (top - 4#32) ip
  let s2 := s1.writeWord (top - 8#32) r.typeWord
  let s3 := s2.writeWord (top - 12#32) s.ac.toWord
  let s4 := s3.writeWord (top - 16#32) s.pctl
  let s5 := s4.writeSlot (top - 20#32) ((r.override.map Slot.word).getD (.free s.serial overrideIndex))
  have m1 : s.MemStep s1 := State.writeWord_memStep ..
  have m2 : s.MemStep s2 := m1.trans (State.writeWord_memStep ..)
  have m3 : s.MemStep s3 := m2.trans (State.writeWord_memStep ..)
  have m4 : s.MemStep s4 := m3.trans (State.writeWord_memStep ..)
  have o1 : State.SameOutside (top - 4#32) 4 s s1 := State.writeWord_sameOutside s _ _
  have o2 : State.SameOutside (top - 8#32) 4 s1 s2 := State.writeWord_sameOutside s1 _ _
  have o3 : State.SameOutside (top - 12#32) 4 s2 s3 := State.writeWord_sameOutside s2 _ _
  have o4 : State.SameOutside (top - 16#32) 4 s3 s4 := State.writeWord_sameOutside s3 _ _
  have o5 : State.SameOutside (top - 20#32) 4 s4 s5 := State.writeSlot_sameOutside s4 _ _
  have o6 : State.SameOutside (top - 44#32) 24 s5 t := State.writeRecordTail_sameOutside 6 _ _ s5
  have k5 : State.SameOutside (top - 44#32) 28 s4 t := (o5.part (by bv_omega)).trans (o6.part (by bv_omega))
  have k4 : State.SameOutside (top - 44#32) 32 s3 t := (o4.part (by bv_omega)).trans (k5.part (by bv_omega))
  have k3 : State.SameOutside (top - 44#32) 36 s2 t := (o3.part (by bv_omega)).trans (k4.part (by bv_omega))
  have k2 : State.SameOutside (top - 44#32) 40 s1 t := (o2.part (by bv_omega)).trans (k3.part (by bv_omega))
  refine ⟨fun h => ?_, fun h => ?_, fun h => ?_, fun h => ?_, fun w hw h => ?_,
    (o1.part (by bv_omega)).trans (k2.part (by bv_omega))⟩
  · rw [k2.readWord fun i hi => by bv_omega]
    exact State.readWord_writeWord_ram ip h
  · rw [k3.readWord fun i hi => by bv_omega]
    exact State.readWord_writeWord_ram r.typeWord (h.congr m1.memMap)
  · rw [k4.readWord fun i hi => by bv_omega]
    exact State.readWord_writeWord_ram s.ac.toWord (h.congr m2.memMap)
  · rw [k5.readWord fun i hi => by bv_omega]
    exact State.readWord_writeWord_ram s.pctl (h.congr m3.memMap)
  · rw [o6.readWord fun i hi => by bv_omega]
    have e := State.readWord_writeSlot (s := s4) ((r.override.map Slot.word).getD (.free s.serial overrideIndex))
      (h.congr m4.memMap)
    rw [hw] at e
    change s5.readWord (top - 20#32) = w
    simp only [s5, hw]
    exact e

/-- The fault type word is the type times 2^16 and the subtype (R512). -/
theorem Exn.typeWord_eq (e : Exn) : e.typeWord = BitVec.ofNat 32 (e.typeNumber * 2 ^ 16 + e.subtype.toNat) := by
  have h : e.typeNumber < 16 := by cases e <;> simp [Exn.typeNumber]
  have h8 := e.subtype.isLt
  apply BitVec.eq_of_toNat_eq
  rw [Exn.typeWord, BitVec.toNat_append, BitVec.toNat_append, BitVec.toNat_append, BitVec.toNat_ofNat, BitVec.toNat_ofNat,
    ← Nat.shiftLeft_add_eq_or_of_lt h8]
  simp only [BitVec.toNat_ofNat, Nat.zero_mod, Nat.or_zero, Nat.shiftLeft_eq, Nat.zero_mul, Nat.zero_or]
  omega

/-! ### The handler of a fault (R508) -/

theorem State.faultHandler_bad {n : Nat} (h : s.readable (s.faultTable + BitVec.ofNat 32 (8 * n)) 8 = false) :
    s.faultHandler n = .raise .badAccess := by
  rw [State.readable_append s 4 4, Bool.and_eq_false_iff] at h
  simp only [State.faultHandler]
  cases h4 : s.readable (s.faultTable + BitVec.ofNat 32 (8 * n)) 4 with
  | false => rw [State.loadWord_bad h4, Eff.bind_raise]
  | true =>
    rw [State.loadWord_ok h4, Eff.bind_ok, State.loadWord_bad (h.resolve_left (by rw [h4]; decide)), Eff.bind_raise]

theorem State.faultHandler_readable {n : Nat} (h : s.readable (s.faultTable + BitVec.ofNat 32 (8 * n)) 8 = true) :
    let entry := s.readWord (s.faultTable + BitVec.ofNat 32 (8 * n))
    s.faultHandler n =
      if entry.extractLsb' 0 2 = 0#2 then .ok { target := entry, stack := s.sp, switch := none }
      else if entry.extractLsb' 0 2 = 2#2 then s.systemProcedure (entry.toNat / 4)
      else .refuse .reservedFaultEntry := by
  have h0 := State.readable_part h 0 4 (by decide)
  rw [BitVec.add_zero] at h0
  have h4 := State.readable_part h 4 4 (by decide)
  simp only [State.faultHandler]
  rw [State.loadWord_ok h0, Eff.bind_ok, State.loadWord_ok h4, Eff.bind_ok]

/-! ### In the handler -/

/-- The new frame of a fault handler (R512). -/
def faultFrame (h : ProcedureCall) : Word := roundUp64 (roundUp64 h.stack + 44#32)

/-- The prereturn flag a fault handler's frame is given (R512, R560). -/
def State.owedFlag (s : State) : Word := if s.prereturnOwed then 8#32 else 0#32

/-- PC in a fault handler (R509, R512). -/
def faultControls (w : Word) (n : Nat) (switch : Option Bool) : Word :=
  let v := match switch with
    | some te => setBit (setBit w 1 true) 0 te
    | none => w
  if n = 1 then setBit v 0 false else v

/-- The state in the handler of a fault (R512). -/
def State.inFaultHandler (n : Nat) (r : FaultReport) (ip savedIp : Word) (s : State) (h : ProcedureCall) : State :=
  { (((s.writeFaultRecord (faultFrame h) ip r).enterFrame savedIp (faultFrame h)
      (s.frameBase ||| 1#32 ||| s.owedFlag)).goto h.target).withControls (faultControls s.pctl n h.switch) s.proc with
    traced := 0 }

theorem State.faultEntry_eq (n : Nat) (r : FaultReport) (ip savedIp : Word) (s : State) :
    s.faultEntry n r ip savedIp = (s.faultHandler n).map (s.inFaultHandler n r ip savedIp) := by
  unfold State.faultEntry
  congr 1
  funext h
  have hm := State.writeFaultRecord_memStep (faultFrame h) ip r s
  obtain ⟨hpc, -, hproc, -⟩ := enterFrame_keeps savedIp (faultFrame h) (s.frameBase ||| 1#32 ||| s.owedFlag)
    (s.writeFaultRecord (faultFrame h) ip r)
  rw [hm.pctl] at hpc
  rw [hm.proc] at hproc
  simp only [State.inFaultHandler, faultFrame, State.owedFlag] at hpc hproc ⊢
  generalize (s.writeFaultRecord _ ip r).enterFrame savedIp _ _ = u at hpc hproc
  rw [← hpc, ← hproc]
  cases h.switch <;> by_cases hn : n = 1 <;> simp only [faultControls, hn, if_true, if_false] <;> rfl

theorem inFaultHandler_spec (n : Nat) (r : FaultReport) (ip savedIp : Word) (s : State) (h : ProcedureCall) :
    let t := s.inFaultHandler n r ip savedIp h
    let v := (s.writeFaultRecord (faultFrame h) ip r).enterFrame savedIp (faultFrame h)
      (s.frameBase ||| 1#32 ||| s.owedFlag)
    Entered s savedIp (faultFrame h) (s.frameBase ||| 1#32 ||| s.owedFlag) t ∧ t.ip = h.target &&& 0xFFFFFFFC#32 ∧
      t.pctl = faultControls s.pctl n h.switch ∧ (∀ x, t.readByte x = v.readByte x) ∧ t.tctl = s.tctl ∧
      t.proc = s.proc := by
  intro t v
  have hm := State.writeFaultRecord_memStep (faultFrame h) ip r s
  have hin : Entered s savedIp (faultFrame h) (s.frameBase ||| 1#32 ||| s.owedFlag) v := enterFrame_entered hm _ _ _
  obtain ⟨-, htc, -⟩ := enterFrame_keeps savedIp (faultFrame h) (s.frameBase ||| 1#32 ||| s.owedFlag)
    (s.writeFaultRecord (faultFrame h) ip r)
  rw [hm.tctl] at htc
  simp only [t, State.inFaultHandler]
  generalize hv : (s.writeFaultRecord (faultFrame h) ip r).enterFrame savedIp (faultFrame h)
    (s.frameBase ||| 1#32 ||| s.owedFlag) = v' at htc
  rw [show v = v' from hv] at hin ⊢
  exact ⟨hin.congr rfl rfl rfl rfl rfl, rfl, rfl, fun _ => rfl, htc, rfl⟩

/-- A word of the record, read in the handler. -/
theorem inFaultHandler_readWord (n : Nat) (r : FaultReport) (ip savedIp : Word) (s : State) (h : ProcedureCall) {x : Word}
    (hx : ∀ f ∈ s.flushed, ∀ i < 4, 64 ≤ (x + BitVec.ofNat 32 i - f.frame).toNat) :
    (s.inFaultHandler n r ip savedIp h).readWord x = (s.writeFaultRecord (faultFrame h) ip r).readWord x := by
  obtain ⟨-, -, -, hb, -⟩ := inFaultHandler_spec n r ip savedIp s h
  rw [State.readWord_congr hb]
  exact enterFrame_readWord (State.writeFaultRecord_memStep _ ip r s) _ _ _ hx

/-- The words of the record stay while the handler's frame is entered. -/
theorem inFaultHandler_words (n : Nat) (r : FaultReport) (ip savedIp : Word) (s : State) (h : ProcedureCall) {m : Nat}
    (h16 : 16 ≤ m) (h20 : m ≤ 20) (hram : s.ramAt (faultFrame h - BitVec.ofNat 32 m) m)
    (hapart : ∀ f ∈ s.flushed, Apart f.frame 64 (faultFrame h - BitVec.ofNat 32 m) m) :
    let t := s.inFaultHandler n r ip savedIp h
    t.readWord (faultFrame h - 4#32) = ip ∧ t.readWord (faultFrame h - 8#32) = r.typeWord ∧
      t.readWord (faultFrame h - 12#32) = s.ac.toWord ∧ t.readWord (faultFrame h - 16#32) = s.pctl ∧
      (m = 20 → ∀ w, r.override = some w → t.readWord (faultFrame h - 20#32) = w) := by
  intro t
  have recorded : ∀ (c : Nat) (w : Word), 4 ≤ c → c ≤ m → (s.ramAt (faultFrame h - BitVec.ofNat 32 c) 4 →
      (s.writeFaultRecord (faultFrame h) ip r).readWord (faultFrame h - BitVec.ofNat 32 c) = w) →
      t.readWord (faultFrame h - BitVec.ofNat 32 c) = w := by
    intro c w h4 hc hw
    have e : faultFrame h - BitVec.ofNat 32 m + BitVec.ofNat 32 (m - c) = faultFrame h - BitVec.ofNat 32 c := by bv_omega
    rw [inFaultHandler_readWord n r ip savedIp s h fun f hf i hi => ?_]
    · exact hw (e ▸ hram.part (m - c) 4 (by omega))
    · rw [← e, add_ofNat_add]
      exact (hapart f hf).word (by omega)
  obtain ⟨w4, w8, w12, w16, w20, -⟩ := State.writeFaultRecord_words (faultFrame h) ip r s
  exact ⟨recorded 4 _ (by decide) (by omega) w4, recorded 8 _ (by decide) (by omega) w8,
    recorded 12 _ (by decide) (by omega) w12, recorded 16 _ (by decide) (by omega) w16,
    fun e w hw => recorded 20 _ (by decide) (by omega) (w20 w hw)⟩

theorem faultControls_spec (w : Word) (n : Nat) (switch : Option Bool) :
    (faultControls w n switch).getLsbD 1 = (switch.isSome || w.getLsbD 1) ∧
      (faultControls w n switch).getLsbD 0 = (switch.getD (w.getLsbD 0) && n != 1) ∧
      ∀ k, 2 ≤ k → (faultControls w n switch).getLsbD k = w.getLsbD k := by
  have clear : ∀ v : Word, (setBit v 0 false).getLsbD 0 = false ∧ ∀ k, 1 ≤ k → (setBit v 0 false).getLsbD k = v.getLsbD k :=
    fun v => ⟨by rw [getLsbD_setBit _ _ _ _ (by decide)]; rfl,
      fun k hk => by rw [getLsbD_setBit _ _ _ _ (by decide), if_neg (by omega)]⟩
  unfold faultControls
  cases switch with
  | none =>
    by_cases hn : n = 1
    · rw [if_pos hn, hn]
      exact ⟨(clear w).2 1 (by decide), (clear w).1.trans (by simp), fun k hk => (clear w).2 k (by omega)⟩
    · rw [if_neg hn]
      exact ⟨rfl, by simp [hn], fun _ _ => rfl⟩
  | some te =>
    obtain ⟨h1, h0, hk'⟩ := switchedControls w te
    by_cases hn : n = 1
    · rw [if_pos hn, hn]
      exact ⟨((clear _).2 1 (by decide)).trans h1, (clear _).1.trans (by simp),
        fun k hk => ((clear _).2 k (by omega)).trans (hk' k hk)⟩
    · rw [if_neg hn]
      exact ⟨h1, h0.trans (by simp [hn]), hk'⟩

/-- A prereturn trace can be owed only where its mode and tracing are on. -/
theorem owedFlag_cases (s : State) : s.owedFlag = 0#32 ∨ (s.owedFlag = 8#32 ∧ s.te = true ∧ s.tctl.getLsbD 5 = true) := by
  unfold State.owedFlag
  cases h : s.prereturnOwed with
  | false => exact .inl rfl
  | true =>
    simp only [State.prereturnOwed, Bool.and_eq_true, bne_iff_ne] at h
    obtain ⟨⟨hte, hmode⟩, -⟩ := h
    refine .inr ⟨rfl, hte, ?_⟩
    rw [show evPrereturn = BitVec.twoPow 8 5 from rfl, traceModes_and_twoPow _ (by decide) (by decide)] at hmode
    by_contra hb
    rw [if_neg hb] at hmode
    exact hmode rfl

theorem takeFault_enters {e : Exn} {ip savedIp : Word} {h : ProcedureCall} (he : s.faultHandler e.typeNumber = .ok h) :
    takeFault e ip savedIp s = .next (s.inFaultHandler e.typeNumber e.report ip savedIp h) := by
  rw [takeFault, State.faultEntry_eq, he, Eff.map_ok]

/-- Settles O46. -/
theorem faultsEnterTheirHandler : Obligations.FaultsEnterTheirHandler := by
  intro s e ip savedIp hc n entryAt entry procAt ssp up enters hr
  have handled : ∀ (target stack' stack : Word) (switch : Option Bool) (em te : Bool),
      s.faultHandler n = .ok { target := target, stack := stack', switch := switch } → stack' = stack →
      (switch.isSome || s.supervisor) = em → switch.getD s.te = te → enters target stack em te := by
    rintro target stack' _ switch _ _ hh rfl rfl rfl hram hapart
    let h : ProcedureCall := { target := target, stack := stack', switch := switch }
    change s.ramAt (faultFrame h - 16#32) 16 at hram
    change ∀ f ∈ s.flushed, Apart f.frame 64 (faultFrame h - 16#32) 16 at hapart
    generalize ht : s.inFaultHandler n e.report ip savedIp h = t
    have hm := State.writeFaultRecord_memStep (faultFrame h) ip e.report s
    obtain ⟨hin, hip, hpc, hb, htc, hproc⟩ := inFaultHandler_spec n e.report ip savedIp s h
    obtain ⟨-, -, -, -, -, out⟩ := State.writeFaultRecord_words (faultFrame h) ip e.report s
    obtain ⟨w4, w8, w12, w16, -⟩ :=
      inFaultHandler_words n e.report ip savedIp s h (m := 16) (by decide) (by decide) hram hapart
    obtain ⟨c1, c0, ck⟩ := faultControls_spec s.pctl n h.switch
    rw [ht] at hin hip hpc hb htc hproc w4 w8 w12 w16
    rw [← hpc] at c1 c0 ck
    refine ⟨s.owedFlag, owedFlag_cases s, t, (takeFault_enters hh).trans (congrArg _ ht), hin, hip,
      w4, w8.trans e.typeWord_eq, w12, w16,
      fun f hf hfr i => ?_, fun x hx hf => ?_, c1, c0, ck, htc, hproc⟩
    · rw [State.readWord_congr hb]
      exact enterFrame_flushed hm hc _ _ _ f hf hfr i
    · rw [hb, enterFrame_outside hm _ _ _ hf]
      exact out x hx
  have entered : s.faultHandler n = if entry.extractLsb' 0 2 = 0#2 then
        .ok { target := entry, stack := s.sp, switch := none }
      else if entry.extractLsb' 0 2 = 2#2 then s.systemProcedure (entry.toNat / 4)
      else .refuse .reservedFaultEntry := State.faultHandler_readable hr
  refine ⟨fun h => ?_, fun h hk hp => ⟨fun hstay => ?_, fun hsw hs hssp => ?_⟩, fun h => ?_⟩
  · rw [if_pos h] at entered
    exact handled _ _ _ none _ _ entered rfl rfl rfl
  · rw [if_neg (by rw [h]; decide), if_pos h] at entered
    exact handled _ _ _ none _ _ (entered.trans (State.systemProcedure_stay hk hp hstay)) rfl rfl rfl
  · rw [if_neg (by rw [h]; decide), if_pos h] at entered
    exact handled _ _ _ (some _) _ _ (entered.trans (State.systemProcedure_switch hk hp hsw hs hssp)) rfl rfl rfl
  · have reserved : entry.extractLsb' 0 2 ≠ 0#2 ∧ entry.extractLsb' 0 2 ≠ 2#2 := by
      rcases h with h | h <;> rw [h] <;> decide
    rw [if_neg reserved.1, if_neg reserved.2] at entered
    rw [takeFault, State.faultEntry_eq, entered, Eff.map_refuse]

/-! ### Escalation (R513) -/

/-- The low bits of a frame's r0 are its return status. -/
theorem returnStatus (x c owed : Word) (ho : owed = 0#32 ∨ owed = 8#32) :
    ((x &&& 0xFFFFFFC0#32) ||| c ||| owed).extractLsb' 0 3 = c.extractLsb' 0 3 := by
  have h0 : (0xFFFFFFC0#32).extractLsb' 0 3 = 0#3 := by decide
  have hw : owed.extractLsb' 0 3 = 0#3 := by rcases ho with rfl | rfl <;> decide
  rw [BitVec.extractLsb'_or, BitVec.extractLsb'_or, BitVec.extractLsb'_and, h0, hw, BitVec.and_zero, BitVec.zero_or,
    BitVec.or_zero]

/-- The override fault's handler (R513). -/
theorem takeFault_overrides {e second : Exn} {ip savedIp : Word} {h : ProcedureCall}
    (h1 : s.faultHandler e.typeNumber = .raise second) (h2 : s.faultHandler 0 = .ok h) :
    takeFault e ip savedIp s = .next (s.inFaultHandler 0 (e.overrideReport second) ip savedIp h) := by
  simp only [takeFault, State.faultEntry_eq, h1, h2, Eff.map_ok, Eff.map_raise]

/-- A third fault is a system error (R513). -/
theorem takeFault_systemError {e second third : Exn} {ip savedIp : Word}
    (h1 : s.faultHandler e.typeNumber = .raise second) (h2 : s.faultHandler 0 = .raise third) :
    takeFault e ip savedIp s = .next (s.systemError (e.overrideReport third) ip savedIp) := by
  simp only [takeFault, State.faultEntry_eq, h1, h2, Eff.map_raise]

/-- The machine with the system-error record and its mark in the PRCB (R513). -/
def State.systemErrorRecorded (r : FaultReport) (ip : Word) (s : State) : State :=
  (s.refault.writeFaultRecord (s.prcb + 172#32) ip r).writeFreeWord (s.prcb + 72#32) s.serial systemErrorIndex

theorem systemErrorRecorded_memStep (r : FaultReport) (ip : Word) (s : State) :
    s.refault.MemStep (s.systemErrorRecorded r ip) :=
  (State.writeFaultRecord_memStep ..).trans (State.writeFreeWord_memStep ..)

theorem State.systemError_ok {r : FaultReport} {ip savedIp : Word}
    (h : (s.systemErrorRecorded r ip).interruptEntry 248#8 savedIp = .ok t) :
    s.systemError r ip savedIp = { t with traced := 0 } := by
  unfold State.systemErrorRecorded at h
  unfold State.systemError
  extract_lets t'
  split
  case h_1 u hu => rw [Eff.ok.inj (h.symm.trans hu)]
  case h_2 hu => exact absurd h (hu t)

theorem State.systemError_raise {r : FaultReport} {ip savedIp : Word} {e : Exn}
    (h : (s.systemErrorRecorded r ip).interruptEntry 248#8 savedIp = .raise e) :
    s.systemError r ip savedIp = { s.systemErrorRecorded r ip with proc := .stopped, traced := 0 } := by
  unfold State.systemErrorRecorded at h ⊢
  unfold State.systemError
  extract_lets t'
  split
  case h_1 u hu => exact absurd (h.symm.trans hu) nofun
  case h_2 => rfl

/-- A word clear of the record and its mark is as it was. -/
theorem systemErrorRecorded_readWord (r : FaultReport) (ip : Word) (s : State) {x : Word}
    (hrec : ∀ i < 4, ∀ j < 44, x + BitVec.ofNat 32 i ≠ s.prcb + 128#32 + BitVec.ofNat 32 j)
    (hmark : ∀ i < 4, ∀ j < 4, x + BitVec.ofNat 32 i ≠ s.prcb + 72#32 + BitVec.ofNat 32 j) :
    (s.systemErrorRecorded r ip).readWord x = s.readWord x := by
  obtain ⟨-, -, -, -, -, out⟩ := State.writeFaultRecord_words (s.prcb + 172#32) ip r s.refault
  have e : s.prcb + 172#32 - 44#32 = s.prcb + 128#32 := by bv_omega
  rw [e] at out
  rw [State.systemErrorRecorded, State.writeFreeWord_sameOutside_word _ _ fun i hi => outside_of_ne (hmark i hi),
    out.readWord fun i hi => outside_of_ne (hrec i hi)]
  rfl

/-- What the record in the PRCB tells of a system error (R513). -/
theorem systemErrorRecorded_words (r : FaultReport) (ip : Word) (s : State) (h : s.ramAt (s.prcb + 128#32) 44) :
    let t := s.systemErrorRecorded r ip
    t.readWord (s.prcb + 168#32) = ip ∧ t.readWord (s.prcb + 164#32) = r.typeWord ∧
      t.readWord (s.prcb + 160#32) = s.ac.toWord ∧ t.readWord (s.prcb + 156#32) = s.refault.pctl ∧
      ∀ w, r.override = some w → t.readWord (s.prcb + 152#32) = w := by
  intro t
  have recorded : ∀ (c : Nat) (w : Word), 128 ≤ c → c ≤ 168 →
      ((s.refault.ramAt (s.prcb + 172#32 - BitVec.ofNat 32 (172 - c)) 4) →
        (s.refault.writeFaultRecord (s.prcb + 172#32) ip r).readWord (s.prcb + 172#32 - BitVec.ofNat 32 (172 - c)) = w) →
      t.readWord (s.prcb + BitVec.ofNat 32 c) = w := by
    intro c w h1 h2 hw
    have e : s.prcb + 172#32 - BitVec.ofNat 32 (172 - c) = s.prcb + BitVec.ofNat 32 c := by bv_omega
    have e' : s.prcb + 128#32 + BitVec.ofNat 32 (c - 128) = s.prcb + BitVec.ofNat 32 c := by bv_omega
    rw [e] at hw
    simp only [t, State.systemErrorRecorded]
    rw [State.writeFreeWord_sameOutside_word _ _ fun i hi => by bv_omega]
    exact hw ((e' ▸ h.part (c - 128) 4 (by omega)).congr rfl)
  obtain ⟨w4, w8, w12, w16, w20, -⟩ := State.writeFaultRecord_words (s.prcb + 172#32) ip r s.refault
  exact ⟨recorded 168 _ (by decide) (by decide) w4, recorded 164 _ (by decide) (by decide) w8,
    recorded 160 _ (by decide) (by decide) w12, recorded 156 _ (by decide) (by decide) w16,
    fun w hw => recorded 152 _ (by decide) (by decide) (w20 w hw)⟩

/-- A stopped processor executes nothing (R575). -/
theorem step_stopped (hr : s.restarted = false) (hp : s.proc = .stopped) : step s = .fault .stopped := by
  rw [step, hr, hp]
  rfl

/-- Settles O47. -/
theorem failedFaultsEscalate : Obligations.FailedFaultsEscalate := by
  intro s e ip savedIp first nfp hbad
  have hfirst : first = e.typeWord := e.typeWord_eq.symm
  have h1 := State.faultHandler_bad hbad
  have zero : s.faultTable + BitVec.ofNat 32 (8 * 0) = s.faultTable := BitVec.add_zero _
  have h2 : s.readable s.faultTable 8 = false → s.faultHandler 0 = .raise .badAccess := fun h =>
    State.faultHandler_bad (by rwa [zero])
  have vector : s.intTable + 4#32 + BitVec.ofNat 32 (4 * (248#8).toNat) = s.intTable + 996#32 := by bv_omega
  let r := e.overrideReport .badAccess
  have hm := systemErrorRecorded_memStep r ip s
  let v := s.systemErrorRecorded r ip
  have hvpc : v.pctl = setBit s.pctl 12 true := hm.pctl
  have readVector : v.readable (v.intTable + 4#32 + BitVec.ofNat 32 (4 * (248#8).toNat)) 4 =
      s.readable (s.intTable + 996#32) 4 := by
    rw [hm.intTable, State.readable_congr hm.memMap, show s.refault.intTable = s.intTable from rfl, vector]
    rfl
  refine ⟨fun hr hlocal => ?_, fun hr hv hrec hmark => ?_, fun hr hv => ?_⟩
  · have entered := State.faultHandler_readable (s := s) (n := 0) (by rwa [zero])
    simp only [zero] at entered
    rw [if_pos hlocal] at entered
    let h : ProcedureCall := { target := s.readWord s.faultTable, stack := s.sp, switch := none }
    obtain ⟨hin, hip, hpc, -⟩ := inFaultHandler_spec 0 r ip savedIp s h
    have words := inFaultHandler_words 0 r ip savedIp s h (m := 20) (by decide) (by decide)
    have hrun : takeFault e ip savedIp s = .next (s.inFaultHandler 0 r ip savedIp h) := takeFault_overrides h1 entered
    generalize s.inFaultHandler 0 r ip savedIp h = t at hin hip hpc words hrun
    refine ⟨t, hrun, hip, hin.ac, hpc, ?_, fun hram hapart _ => ?_⟩
    · rw [hin.pfp]
      exact returnStatus _ 1#32 _ ((owedFlag_cases s).imp_right And.left)
    · obtain ⟨w4, w8, w12, w16, w20⟩ := words hram hapart
      exact ⟨w4, w8, w12, w16, (w20 rfl _ rfl).trans hfirst.symm⟩
  · have hrun := takeFault_systemError (ip := ip) (savedIp := savedIp) h1 (h2 hr)
    have hread := (readVector.trans hv : _ = true)
    rw [State.systemError_ok (State.interruptEntry_ok savedIp hread)] at hrun
    obtain ⟨hin, -⟩ := inHandler_spec 248#8 savedIp v
    have hip : (v.inHandler 248#8 savedIp).ip = v.readWord (v.intTable + 4#32 + BitVec.ofNat 32 (4 * (248#8).toNat)) &&&
        0xFFFFFFFC#32 := rfl
    have hpc : (v.inHandler 248#8 savedIp).pctl = interruptControls v.pctl 31 := rfl
    rw [hm.intTable, show s.refault.intTable = s.intTable from rfl, vector,
      systemErrorRecorded_readWord r ip s hrec hmark] at hip
    rw [hvpc] at hpc
    generalize v.inHandler 248#8 savedIp = t at hin hip hpc hrun
    refine ⟨_, hrun, hip, ?_, ?_, ?_, ?_, hin.ac.trans hm.ac, ?_⟩
    · exact (congrArg (·.getLsbD 1) hpc).trans (interruptControls_supervisor _ _)
    · exact (congrArg (·.getLsbD 0) hpc).trans (interruptControls_te _ _)
    · exact (congrArg (·.extractLsb' 16 5) hpc).trans (interruptControls_priority _ _)
    · refine (congrArg (·.getLsbD 12) hpc).trans ((interruptControls_others _ _ 12 (by decide)).trans ?_)
      rw [getLsbD_setBit _ _ _ _ (by decide)]
      rfl
    · refine (congrArg (·.extractLsb' 0 3) hin.pfp).trans ?_
      have h7 := returnStatus v.globals[(15 : Fin 16)] 7#32 0#32 (.inl rfl)
      rw [BitVec.or_zero] at h7
      exact h7
  · have hrun := takeFault_systemError (ip := ip) (savedIp := savedIp) h1 (h2 hr)
    rw [State.systemError_raise (State.interruptEntry_bad savedIp (readVector.trans hv))] at hrun
    have words := systemErrorRecorded_words r ip s
    generalize s.systemErrorRecorded r ip = v' at hrun hm words
    refine ⟨_, hrun, rfl, hm.ac, hm.pctl, fun hres => step_stopped (hm.restarted.trans hres) rfl,
      fun q => hm.contents q, fun hram => ?_⟩
    obtain ⟨w4, w8, w12, w16, w20⟩ := words hram
    exact ⟨w4, w8, w12, w16, (w20 _ rfl).trans hfirst.symm⟩

end Sys2Proof.Machine
end

section
/-! SUPPORT. Floating-point instructions deliver their rounded result or trap (R428, R430 to R452, R473, R474). -/

namespace Sys2Proof.Machine

variable {s : State} {f : FpFormat}

/-! ### Which shape each instruction has -/

theorem fpBinary_row : ∀ row ∈ fpBinaryRows, ∀ (x y : FSrc) (d : FDst) (s : State),
    exec (row.2.1 x y d) s = fpBinary s row.1 row.2.2 x y d := by
  unfold fpBinaryRows
  simp only [List.forall_mem_cons, List.not_mem_nil, false_implies, implies_true, and_true]
  exact ⟨fun _ _ _ _ => rfl, fun _ _ _ _ => rfl, fun _ _ _ _ => rfl, fun _ _ _ _ => rfl, fun _ _ _ _ => rfl,
    fun _ _ _ _ => rfl, fun _ _ _ _ => rfl, fun _ _ _ _ => rfl⟩

theorem fpUnary_row : ∀ row ∈ fpUnaryRows, ∀ (x : FSrc) (d : FDst) (s : State),
    exec (row.2.1 x d) s = fpUnary s row.1 row.2.2 x d := by
  unfold fpUnaryRows
  simp only [List.forall_mem_cons, List.not_mem_nil, false_implies, implies_true, and_true]
  exact ⟨fun _ _ _ => rfl, fun _ _ _ => rfl, fun _ _ _ => rfl, fun _ _ _ => rfl, fun _ _ _ => rfl, fun _ _ _ => rfl⟩

theorem transUnary_row : ∀ row ∈ transUnaryRows, ∃ g : State → FpTarget → FpNum → FpResult,
    ∀ (x : FSrc) (d : FDst) (s : State), exec (row.2 x d) s = transUnary s row.1 (g s) x d := by
  unfold transUnaryRows
  simp only [List.forall_mem_cons, List.not_mem_nil, false_implies, implies_true, and_true]
  exact ⟨⟨_, fun _ _ _ => rfl⟩, ⟨_, fun _ _ _ => rfl⟩, ⟨_, fun _ _ _ => rfl⟩, ⟨_, fun _ _ _ => rfl⟩,
    ⟨_, fun _ _ _ => rfl⟩, ⟨_, fun _ _ _ => rfl⟩, ⟨_, fun _ _ _ => rfl⟩, ⟨_, fun _ _ _ => rfl⟩⟩

theorem transBinary_row : ∀ row ∈ transBinaryRows, ∃ g : State → FpTarget → FpNum → FpNum → FpResult,
    ∀ (x y : FSrc) (d : FDst) (s : State), exec (row.2 x y d) s = transBinary s row.1 (g s) x y d := by
  unfold transBinaryRows
  simp only [List.forall_mem_cons, List.not_mem_nil, false_implies, implies_true, and_true]
  exact ⟨⟨_, fun _ _ _ _ => rfl⟩, ⟨_, fun _ _ _ _ => rfl⟩, ⟨_, fun _ _ _ _ => rfl⟩, ⟨_, fun _ _ _ _ => rfl⟩,
    ⟨_, fun _ _ _ _ => rfl⟩, ⟨_, fun _ _ _ _ => rfl⟩⟩

theorem fpCompare_row : ∀ row ∈ fpCompareRows, ∀ (x y : FSrc) (s : State),
    exec (row.2.2 x y) s = fpCompare s row.1 row.2.1 x y := by
  unfold fpCompareRows
  simp only [List.forall_mem_cons, List.not_mem_nil, false_implies, implies_true, and_true]
  exact ⟨fun _ _ _ => rfl, fun _ _ _ => rfl, fun _ _ _ => rfl, fun _ _ _ => rfl⟩

/-! ### Masks -/

theorem AllMasked.masked (h : AllMasked s.ac) (exc : FpExceptions) : Masked s exc :=
  have ⟨ho, hu, hi, hz, hx⟩ := h
  ⟨fun _ => hi, fun _ => hz, fun _ => ho, fun _ => hu, fun _ => hx⟩

/-- With every exception masked a result is delivered. -/
theorem DeliversRounded.gives {d : FDst} {r : FpResult} {x : Res} (h : DeliversRounded s f d r x) (hm : AllMasked s.ac) :
    Gives x (FpWrites s f d (deliveredBits (targetFormat f d) s.ac.rc r)
      (withFlags s.ac (deliveredExceptions (targetFormat f d) s.ac.rc r))) := h.1 (hm.masked _)

theorem DeliversRounded.traps {d : FDst} {r : FpResult} {x : Res} (h : DeliversRounded s f d r x) :
    Traps s (deliveredExceptions (targetFormat f d) s.ac.rc r) x := h.2

/-! ### The shapes -/

theorem fpBinary_delivers {x y : FSrc} {d : FDst} (op : Nat → BitVec 2 → FpNum → FpNum → FpResult)
    (hx : SourceReady s f x) (hy : SourceReady s f y) (hd : TargetReady f d) :
    DeliversRounded s f d (twoSourceResult s f (op s.serial s.ac.rc) x y) (fpBinary s f op x y d) := by
  rw [fpBinary, fpOperands_ready hx hy hd]
  exact fpDeliver_delivers _ hd

theorem fpUnary_delivers {x : FSrc} {d : FDst} (op : Nat → BitVec 2 → FpNum → FpResult) (hx : SourceReady s f x)
    (hd : TargetReady f d) :
    DeliversRounded s f d (oneSourceResult s f (op s.serial s.ac.rc) x) (fpUnary s f op x d) := by
  rw [fpUnary, fpOperand_ready 1 hx hd]
  exact fpDeliver_delivers _ hd

theorem fpScaling_delivers {x : FSrc} {d : FDst} (n : Int) (hx : SourceReady s f x) (hd : TargetReady f d) :
    DeliversRounded s f d (oneSourceResult s f (fpScale n) x) (fpScaling s f n x d) := by
  rw [fpScaling, fpOperand_ready 2 hx hd]
  exact fpDeliver_delivers _ hd

theorem transUnary_delivers {x : FSrc} {d : FDst} (g : FpTarget → FpNum → FpResult) (hx : SourceReady s f x)
    (hd : TargetReady f d) :
    DeliversRounded s f d (oneSourceResult s f (g (targetOf d)) x) (transUnary s f g x d) := by
  rw [transUnary, fpOperand_ready 1 hx hd]
  exact fpDeliver_delivers _ hd

theorem transBinary_delivers {x y : FSrc} {d : FDst} (g : FpTarget → FpNum → FpNum → FpResult) (hx : SourceReady s f x)
    (hy : SourceReady s f y) (hd : TargetReady f d) :
    DeliversRounded s f d (twoSourceResult s f (g (targetOf d)) x y) (transBinary s f g x y d) := by
  rw [transBinary, fpOperands_ready hx hy hd]
  exact fpDeliver_delivers _ hd

theorem fpFromInt_delivers {d : FDst} (i : Int) (hd : TargetReady .real d) :
    DeliversRounded s .real d { num := .ofInt i } (fpFromInt s (.ok i) d) := by
  rw [fpFromInt, Eff.bind_ok, fpTarget_ready hd, Eff.map_ok]
  exact fpDeliver_delivers _ hd

/-- The long integer of a register pair (R474). -/
theorem srcWords_pair {q : Reg} (h : q.toNat % 2 = 0) :
    (srcWords s 2 (.reg q)).map (fun ws => (ws.getD 1 0 ++ ws.getD 0 0).toInt) =
      .ok (s.readReg (q + 1#5) ++ s.readReg q).toInt := by
  have ha : Reg.startsGroup (groupSize 2) q = true := startsGroup_iff.2 h
  simp only [srcWords, aligned, ha, if_true, Eff.map_ok, State.readRegs]
  rfl

/-- A literal long integer is extended with zeros (R138, log 71). -/
theorem srcWords_literal (v : BitVec 5) :
    (srcWords s 2 (.lit v)).map (fun ws => (ws.getD 1 0 ++ ws.getD 0 0).toInt) = .ok (v.toNat : Int) := by
  have e : ((0#32 : Word) ++ v.setWidth 32).toInt = v.toNat := by
    have h : ((0#32 : Word) ++ v.setWidth 32).toNat = v.toNat := by
      rw [BitVec.toNat_append]
      simp only [BitVec.toNat_ofNat, Nat.zero_mod, Nat.zero_shiftLeft, Nat.zero_or, BitVec.toNat_setWidth]
      omega
    rw [BitVec.toInt_eq_toNat_of_lt (by omega), h]
  exact congrArg Eff.ok e

/-- Bits written, with another arithmetic status left beside them. -/
theorem FpWrites.setStatus {d : FDst} {bits : Ext} {ac : ArithControls} {t : State} (h : FpWrites s f d bits ac t)
    (v : BitVec 4) : FpWrites s f d bits { ac with ast := v } { t with ac := { t.ac with ast := v } } := by
  obtain ⟨hr, ha, hi, hb, hs⟩ := h
  refine ⟨?_, by rw [ha], hi, hb, ?_⟩
  · cases d with
    | reg r => exact ⟨⟨hr.1.written, hr.1.others⟩, hr.2⟩
    | fp k => exact hr
    | reserved c => exact hr
  · cases hs
    constructor <;> assumption

theorem fpRem_inexact (k : Nat) (rc : BitVec 2) (x y : FpNum) : (fpRem k rc x y).exc.inexact = false := by
  unfold fpRem
  split
  case h_2 => split <;> rfl
  all_goals rfl

theorem remainderResult_inexact (x y : FpOperand) : (fpBinaryResult s fpRem x y).exc.inexact = false := by
  unfold fpBinaryResult
  split
  case isTrue => rfl
  case isFalse => exact fpRem_inexact _ _ _ _

/-- A remainder ends as any result does, but for AC.as (R443, U24). -/
theorem fpRemainder_lands {x y : FSrc} {d : FDst} (hx : SourceReady s f x) (hy : SourceReady s f y) (hd : TargetReady f d) :
    let r := twoSourceResult s f (fpRem s.serial s.ac.rc) x y
    let exc := deliveredExceptions (targetFormat f d) s.ac.rc r
    (Masked s exc → ∃ v : BitVec 4, Gives (fpRemainder s f x y d)
      (FpWrites s f d (deliveredBits (targetFormat f d) s.ac.rc r) { withFlags s.ac exc with ast := v })) ∧
    Traps s exc (fpRemainder s f x y d) := by
  intro r exc
  have run : ∃ v : BitVec 4, fpRemainder s f x y d = fpFinish s exc fun t =>
      .next ((((targetOf d).write f (deliveredBits (targetFormat f d) s.ac.rc r) t).setStatus v).advance 4#32) := by
    have hi : r.exc.inexact = false := remainderResult_inexact _ _
    refine ⟨(Config.freeWord s.serial 120).extractLsb' 0 4, ?_⟩
    rw [fpRemainder, fpOperands_ready hx hy hd, State.commitThen_ok]
    simp only [targetOf_format, exc, deliveredExceptions, hi, Bool.or_false]
    rfl
  obtain ⟨v, run⟩ := run
  rw [run]
  refine ⟨fun hm => ⟨v, ?_⟩, fpFinish_traps _ _ _⟩
  rw [fpFinish_masked _ hm]
  exact ⟨_, rfl, (targetOf_write _ _ hd).setStatus v⟩

/-! ### Moves -/

theorem rawExt_eq (s : State) (f : FpFormat) (idx : Nat) {x : FSrc} (hx : ∀ c, x ≠ .reserved c) :
    rawExt s f idx x = sourceBits s f x := by
  cases x with
  | reg r => cases f <;> simp [rawExt, sourceBits, State.readRegs_eq_map, FpFormat.words, List.range_succ, extOfWords]
  | reserved c => exact absurd rfl (hx c)
  | fp k => rfl
  | zero => rfl
  | one => rfl

theorem convertingMove_eq (x : FSrc) (d : FDst) : convertingMove f x (targetOf d) = movesConvert f x d := by
  cases x <;> cases d <;> rfl

theorem SourceReady.not_reserved {x : FSrc} (h : SourceReady s f x) : ∀ c, x ≠ .reserved c := by
  rintro c rfl
  exact h.1

/-- A move within one format copies bits (R430). -/
theorem fpMove_copies {x : FSrc} {d : FDst} (hx : SourceReady s f x) (hd : TargetReady f d)
    (h : movesConvert f x d = false) : Gives (fpMove s f x d) (FpWrites s f d (sourceBits s f x) s.ac) := by
  rw [fpMove, fpOperand_ready 1 hx hd, State.commitThen_ok, convertingMove_eq, h, if_neg (by decide),
    rawExt_eq s f 1 hx.not_reserved]
  exact ⟨_, rfl, targetOf_write _ s.ac hd⟩

/-- A move between formats converts. -/
theorem fpMove_converts {x : FSrc} {d : FDst} (hx : SourceReady s f x) (hd : TargetReady f d)
    (h : movesConvert f x d = true) :
    DeliversRounded s f d (oneSourceResult s f (fun n => { num := n }) x) (fpMove s f x d) := by
  rw [fpMove, fpOperand_ready 1 hx hd, State.commitThen_ok, convertingMove_eq, h, if_pos rfl]
  exact fpDeliver_delivers _ hd

/-- The sign that `cpysre` and `cpyrsre` give (R433, R434). -/
theorem fpCopySign_copies {x y : FSrc} {d : FDst} (b : Bool) (hx : SourceReady s .extended x)
    (hy : SourceReady s .extended y) (hd : TargetReady .extended d) :
    Gives (fpCopySign s b x y d) (FpWrites s .extended d
      (BitVec.ofBool ((sourceOperand s .extended y).neg != b) ++ (sourceBits s .extended x).extractLsb' 0 79) s.ac) := by
  rw [fpCopySign, fpOperands_ready hx hy hd, State.commitThen_ok, rawExt_eq s .extended 1 hx.not_reserved]
  exact ⟨_, rfl, targetOf_write _ s.ac hd⟩

/-! ### The claims -/

/-- Settles O52. -/
theorem floatingPointArithmeticCompletes : Obligations.FloatingPointArithmeticCompletes := by
  intro s x y z d hm delivers nan
  refine ⟨fun row hr hx hy hd => ?_, fun row hr hx hd => ?_, ?_, ?_⟩
  · have h := (fpBinary_delivers row.2.2 hx hy hd).gives hm
    rw [← fpBinary_row row hr] at h
    exact h
  · have h := (fpUnary_delivers row.2.2 hx hd).gives hm
    rw [← fpUnary_row row hr] at h
    exact h
  · simp only [List.forall_mem_cons, List.not_mem_nil, false_implies, implies_true, and_true]
    exact ⟨fun hx hy hd => (fpRemainder_lands hx hy hd).1 (hm.masked _),
      fun hx hy hd => (fpRemainder_lands hx hy hd).1 (hm.masked _)⟩
  · simp only [List.forall_mem_cons, List.not_mem_nil, false_implies, implies_true, and_true]
    have count : ∀ q, z = .reg q → scaleCount s z = (s.readReg q).toInt := by
      rintro q rfl
      rfl
    exact ⟨fun hy hd => ⟨scaleCount s z, count, (fpScaling_delivers _ hy hd).gives hm⟩,
      fun hy hd => ⟨scaleCount s z, count, (fpScaling_delivers _ hy hd).gives hm⟩⟩

/-- Settles O58. -/
theorem floatingPointMoves : Obligations.FloatingPointMoves := by
  intro s x y d
  refine ⟨?_, fun hx hy hd => ⟨?_, ?_⟩⟩
  · simp only [List.forall_mem_cons, List.not_mem_nil, false_implies, implies_true, and_true]
    exact ⟨fun hx hd => ⟨fun h => fpMove_copies hx hd h, fun hm h => (fpMove_converts hx hd h).gives hm⟩,
      fun hx hd => ⟨fun h => fpMove_copies hx hd h, fun hm h => (fpMove_converts hx hd h).gives hm⟩,
      fun hx hd => ⟨fun h => fpMove_copies hx hd h, fun hm h => (fpMove_converts hx hd h).gives hm⟩⟩
  · have h := fpCopySign_copies false hx hy hd
    rw [Bool.bne_false] at h
    exact h
  · have h := fpCopySign_copies true hx hy hd
    rw [Bool.bne_true] at h
    exact h

/-- A comparison ends with the exceptions of its operands (R467, R469). -/
theorem fpCompare_finishes {x y : FSrc} (b : Bool) (hx : SourceReady s f x) (hy : SourceReady s f y) :
    let p := sourceOperand s f x
    let q := sourceOperand s f y
    let o := fpOrder p.num q.num
    fpCompare s f b x y = fpFinish s
      { invalid := if b then p.isNaN || q.isNaN else p.cls == .signalingNaN || q.cls == .signalingNaN }
      fun t => .next ((t.setCc (if p.isNaN || q.isNaN then 0b000 else orderCc o.1 o.2)).advance 4#32) := by
  simp only [fpCompare, ifAligned, fsrcStarts_of_ready hx, fsrcStarts_of_ready hy, Bool.and_self, if_true,
    fpSource_ready _ hx, fpSource_ready _ hy, Eff.bind_ok, Eff.map_ok, State.commitThen_ok]

/-- Settles O54. -/
theorem unmaskedExceptionsTrap : Obligations.UnmaskedExceptionsTrap := by
  intro s x y z d traps
  have count : ∀ q, z = .reg q → scaleCount s z = (s.readReg q).toInt := by
    rintro q rfl
    rfl
  refine ⟨fun row hr hx hy hd => ?_, fun row hr hx hd => ?_, ?_, ?_, ?_, fun hd => ⟨?_, fun q hq => ?_, fun v => ?_⟩,
    fun row hr hx hd => ?_, fun row hr hx hy hd => ?_, fun row hr hx hy => ?_⟩
  · have h := (fpBinary_delivers row.2.2 hx hy hd).traps
    rw [← fpBinary_row row hr] at h
    exact h
  · have h := (fpUnary_delivers row.2.2 hx hd).traps
    rw [← fpUnary_row row hr] at h
    exact h
  · simp only [List.forall_mem_cons, List.not_mem_nil, false_implies, implies_true, and_true]
    exact ⟨fun hx hy hd => (fpRemainder_lands hx hy hd).2, fun hx hy hd => (fpRemainder_lands hx hy hd).2⟩
  · simp only [List.forall_mem_cons, List.not_mem_nil, false_implies, implies_true, and_true]
    exact ⟨fun hy hd => ⟨scaleCount s z, count, (fpScaling_delivers _ hy hd).traps⟩,
      fun hy hd => ⟨scaleCount s z, count, (fpScaling_delivers _ hy hd).traps⟩⟩
  · simp only [List.forall_mem_cons, List.not_mem_nil, false_implies, implies_true, and_true]
    exact ⟨fun hx hd h => (fpMove_converts hx hd h).traps, fun hx hd h => (fpMove_converts hx hd h).traps⟩
  · exact (fpFromInt_delivers _ hd).traps
  · have h := (fpFromInt_delivers (s := s) (s.readReg (q + 1#5) ++ s.readReg q).toInt hd).traps
    rw [← srcWords_pair hq] at h
    exact h
  · have h := (fpFromInt_delivers (s := s) v.toNat hd).traps
    rw [← srcWords_literal v] at h
    exact h
  · obtain ⟨g, hg⟩ := transUnary_row row hr
    rw [hg]
    exact ⟨_, _, transUnary_delivers (g s) hx hd⟩
  · obtain ⟨g, hg⟩ := transBinary_row row hr
    rw [hg]
    exact ⟨_, _, transBinary_delivers (g s) hx hy hd⟩
  · rw [fpCompare_row row hr, fpCompare_finishes _ hx hy]
    exact fpFinish_traps _ _ _

/-! ### Special operands -/

/-- An invalid operation delivers a quiet NaN (R428). -/
theorem invalidResult_quiet (k : Nat) :
    (invalidResult k).exc = { invalid := true } ∧
      ∃ n sig, (invalidResult k).num = .nan n sig ∧ sig.getLsbD 63 = true ∧ sig.getLsbD 62 = true := by
  refine ⟨rfl, _, _, rfl, ?_, ?_⟩ <;> rw [BitVec.getLsbD_or, Bool.or_eq_true] <;> exact .inr (by decide)

theorem fpRem_inf (k : Nat) (rc : BitVec 2) (x : FpNum) (b : Bool) : fpRem k rc x (.inf b) = invalidResult k := by
  cases x <;> rfl

/-- A remainder by zero is invalid, or a zero-divide (R443, log 42). -/
theorem fpRem_zero (k : Nat) (rc : BitVec 2) (a : Bool) (x : FpNum) :
    fpRem k rc (.zero a) x = invalidResult k ∨
      fpRem k rc (.zero a) x = { num := .inf (a != x.sign), exc := { zeroDivide := true } } := by
  cases x with
  | inf b => exact .inl rfl
  | zero b => unfold fpRem; dsimp only; split <;> simp [FpNum.sign]
  | fin b m e => unfold fpRem; dsimp only; split <;> simp [FpNum.sign]
  | nan b v => unfold fpRem; dsimp only; split <;> simp [FpNum.sign]

/-- A NaN beside an operand that is none is propagated, made quiet. -/
theorem nanOf_single (k : Nat) (n : Bool) (sig : BitVec 64) {y : FpNum} (h : ∀ q r, y ≠ .nan q r) :
    nanOf k (.nan n sig) y = quietNaN n sig := by
  cases y with
  | nan q r => exact absurd rfl (h q r)
  | zero b => rfl
  | fin b m e => rfl
  | inf b => rfl

/-- Settles O57. -/
theorem specialOperands : Obligations.SpecialOperands := by
  intro k rc a b m e x bad
  have quiet : bad (invalidResult k) := by
    obtain ⟨h, n, sig, hn, -, h62⟩ := invalidResult_quiet k
    exact ⟨h, n, sig, hn, h62⟩
  have opposite : fpAdd k rc (.inf a) (.inf !a) = invalidResult k := by cases a <;> rfl
  have difference : fpSub k rc (.inf a) (.inf a) = invalidResult k := by cases a <;> rfl
  refine ⟨opposite ▸ quiet, difference ▸ quiet, quiet, quiet, quiet, quiet, quiet, quiet, fpRem_inf k rc x b ▸ quiet, rfl,
    ?_, rfl, fun u v n p sig tau hu => ⟨rfl, fun hv hlt => ⟨?_, ?_⟩, fun hv => ?_⟩⟩
  · rcases fpRem_zero k rc a x with h | h <;> rw [h]
    · exact .inl quiet
    · exact .inr ⟨rfl, _, rfl⟩
  · simp only [nanResult, nanOf, hu, hv, if_pos hlt]
    rfl
  · simp only [nanResult, nanOf, hu, hv, if_neg (Nat.lt_asymm hlt), if_pos hlt]
    rfl
  · simp only [nanResult, hu]
    exact nanOf_single k n sig hv

end Sys2Proof.Machine
end

section
/-! SUPPORT. Reserved floating-point operands, and conversions to integers (R139, R428, R475 to R478, U1). -/

namespace Sys2Proof.Machine

variable {s : State} {f : FpFormat}

/-! ### Sources that are not ready -/

theorem SourceStarts.starts {x : FSrc} (h : SourceStarts f x) : fsrcStarts f x = true := by
  cases x with
  | reg r => exact startsGroup_iff.2 h
  | _ => rfl

theorem SourceStarts.not_reserved {x : FSrc} (h : SourceStarts f x) : ∀ c, x ≠ .reserved c := by
  rintro c rfl
  exact h

/-- A source that starts is ready, or has a bad encoding (R428). -/
theorem SourceStarts.ready_or_bad {x : FSrc} (h : SourceStarts f x) : SourceReady s f x ∨ BadEncoding s f x := by
  by_cases hb : BadEncoding s f x
  · exact .inr hb
  · refine .inl ⟨?_, fun hd => ?_⟩
    · cases x with
      | reg r => exact h
      | fp k => exact fun hr => hb (.inl ⟨⟨k, rfl⟩, hr⟩)
      | zero => trivial
      | one => trivial
      | reserved c => exact h
    · by_contra hn
      exact hb (.inr ⟨hd, by simpa using hn⟩)

theorem fpSource_bad {x : FSrc} (idx : Nat) (h : SourceStarts f x) (hb : BadEncoding s f x) :
    fpSource s f idx x = .raise .fpReservedEncoding := by
  rcases hb with ⟨⟨k, rfl⟩, hr⟩ | ⟨hd, hn⟩
  · change (decodeExtended s.fps[k.toFin]).cls = .reserved at hr
    simp only [fpSource, readFSrc, Eff.bind_ok, checkEncoding, fromFpRegister, hr]
    rfl
  · exact fpSource_denormal idx h.starts h.not_reserved hd hn

/-- A source that starts, or a reserved code: an operand, or one of two faults. -/
theorem fpSource_coded {x : FSrc} (idx : Nat) (h : SourceStarts f x ∨ ReservedCode x) :
    (∃ a, fpSource s f idx x = .ok a) ∨ fpSource s f idx x = .raise .invalidOpcode ∨
      fpSource s f idx x = .raise .fpReservedEncoding := by
  rcases h with h | ⟨c, rfl⟩
  · rcases h.ready_or_bad (s := s) with hr | hb
    · exact .inl ⟨_, fpSource_ready idx hr⟩
    · exact .inr (.inr (fpSource_bad idx h hb))
  · simp only [fpSource, readFSrc]
    split
    case isTrue => exact .inr (.inl rfl)
    case isFalse =>
      rw [Eff.bind_ok, checkEncoding]
      split
      case isTrue => exact .inr (.inr rfl)
      case isFalse => exact .inl ⟨_, rfl⟩

theorem ReservedCode.starts {x : FSrc} (h : SourceStarts f x ∨ ReservedCode x) : fsrcStarts f x = true := by
  rcases h with h | ⟨c, rfl⟩
  · exact h.starts
  · rfl

/-! ### One and two sources -/

theorem fpOperand_bad {x : FSrc} {d : FDst} (idx : Nat) (h : SourceStarts f x) (hb : BadEncoding s f x)
    (hd : TargetReady f d) : fpOperand s f idx x d = .raise .fpReservedEncoding := by
  simp [fpOperand, ifAligned, fdstStarts_of_ready hd, h.starts, fpTarget_ready hd, fpSource_bad idx h hb]

theorem fpOperand_coded {x : FSrc} {d : FDst} (idx : Nat) (h : SourceStarts f x ∨ ReservedCode x) (hd : TargetReady f d) :
    (∃ a, fpOperand s f idx x d = .ok (targetOf d, a)) ∨ fpOperand s f idx x d = .raise .invalidOpcode ∨
      fpOperand s f idx x d = .raise .fpReservedEncoding := by
  simp only [fpOperand, ifAligned, fdstStarts_of_ready hd, ReservedCode.starts h, Bool.and_self, if_true,
    fpTarget_ready hd, Eff.bind_ok]
  rcases fpSource_coded (s := s) idx h with ⟨a, e⟩ | e | e <;> rw [e]
  · exact .inl ⟨a, rfl⟩
  · exact .inr (.inl rfl)
  · exact .inr (.inr rfl)

theorem fpOperands_bad {x y : FSrc} {d : FDst} (hx : SourceStarts f x) (hy : SourceStarts f y)
    (hb : BadEncoding s f x ∨ BadEncoding s f y) (hd : TargetReady f d) :
    fpOperands s f x y d = .raise .fpReservedEncoding := by
  simp only [fpOperands, ifAligned, fdstStarts_of_ready hd, hx.starts, hy.starts, Bool.and_self, if_true,
    fpTarget_ready hd, Eff.bind_ok]
  by_cases hbx : BadEncoding s f x
  · rw [fpSource_bad 1 hx hbx, Eff.bind_raise]
  · rw [fpSource_ready 1 ((hx.ready_or_bad).resolve_right hbx), Eff.bind_ok,
      fpSource_bad 2 hy (hb.resolve_left hbx), Eff.map_raise]

/-- Two sources read one after the other: operands, or one of two faults. -/
theorem twoSources_coded {α : Type} {x y : FSrc} (k : FpOperand → FpOperand → α) (hx : SourceStarts f x ∨ ReservedCode x)
    (hy : SourceStarts f y ∨ ReservedCode y) :
    let z := (fpSource s f 1 x).bind fun a => (fpSource s f 2 y).map fun b => k a b
    (∃ a b, z = .ok (k a b)) ∨ z = .raise .invalidOpcode ∨ z = .raise .fpReservedEncoding := by
  intro z
  simp only [z]
  rcases fpSource_coded (s := s) 1 hx with ⟨a, e⟩ | e | e <;> rw [e]
  · rw [Eff.bind_ok]
    rcases fpSource_coded (s := s) 2 hy with ⟨b, e'⟩ | e' | e' <;> rw [e']
    · exact .inl ⟨a, b, rfl⟩
    · exact .inr (.inl rfl)
    · exact .inr (.inr rfl)
  · exact .inr (.inl rfl)
  · exact .inr (.inr rfl)

theorem fpOperands_coded {x y : FSrc} {d : FDst} (hx : SourceStarts f x ∨ ReservedCode x)
    (hy : SourceStarts f y ∨ ReservedCode y) (hd : TargetReady f d) :
    (∃ a b, fpOperands s f x y d = .ok (targetOf d, a, b)) ∨ fpOperands s f x y d = .raise .invalidOpcode ∨
      fpOperands s f x y d = .raise .fpReservedEncoding := by
  simp only [fpOperands, ifAligned, fdstStarts_of_ready hd, ReservedCode.starts hx, ReservedCode.starts hy, Bool.and_self,
    if_true, fpTarget_ready hd, Eff.bind_ok]
  exact twoSources_coded (fun a b => (targetOf d, a, b)) hx hy

/-! ### How every floating-point instruction ends -/

/-- An instruction writes some bits with the flags of the exceptions it signals, or traps on one of them. -/
def EndsWritten (s : State) (f : FpFormat) (d : FDst) (x : Res) : Prop :=
  ∃ bits exc ast, (Masked s exc → Gives x (FpWrites s f d bits { withFlags s.ac exc with ast := ast })) ∧ Traps s exc x

theorem DeliversRounded.ends {d : FDst} {r : FpResult} {x : Res} (h : DeliversRounded s f d r x) : EndsWritten s f d x :=
  ⟨_, _, s.ac.ast, h.1, h.2⟩

theorem withFlags_none (a : ArithControls) : withFlags a {} = a := by
  cases a
  simp [withFlags]

theorem traps_none (s : State) (x : Res) : Traps s {} x := by
  refine ⟨fun h => ?_, fun _ h => ?_, fun _ _ h => ?_, fun _ _ _ h => ?_, fun _ _ _ _ h => ?_⟩ <;> cases h

/-- An instruction that signals nothing. -/
theorem EndsWritten.of_gives {d : FDst} {bits : Ext} {x : Res} (h : Gives x (FpWrites s f d bits s.ac)) :
    EndsWritten s f d x := by
  refine ⟨bits, {}, s.ac.ast, fun _ => ?_, traps_none s x⟩
  rw [withFlags_none]
  exact h

theorem fpCopy_ends {d : FDst} (bits : Ext) (hd : TargetReady f d) :
    EndsWritten s f d (.next (((targetOf d).write f bits s).advance 4#32)) :=
  .of_gives ⟨_, rfl, targetOf_write bits s.ac hd⟩

theorem fpRemainder_ends {d : FDst} (bits : Ext) (exc : FpExceptions) (v : BitVec 4) (hd : TargetReady f d) :
    EndsWritten s f d (fpFinish s exc fun t => .next ((((targetOf d).write f bits t).setStatus v).advance 4#32)) := by
  refine ⟨bits, exc, v, fun hm => ?_, fpFinish_traps _ _ _⟩
  rw [fpFinish_masked _ hm]
  exact ⟨_, rfl, (targetOf_write _ _ hd).setStatus v⟩

/-- A move ends written whatever its operand. -/
theorem fpMove_ends {d : FDst} (x : FSrc) (a : FpOperand) (hd : TargetReady f d) :
    EndsWritten s f d (if convertingMove f x (targetOf d)
      then fpDeliver s f (targetOf d) (fpUnaryResult s (fun _ _ n => { num := n }) a)
      else .next (((targetOf d).write f (rawExt s f 1 x) s).advance 4#32)) := by
  split
  case isTrue => exact (fpDeliver_delivers _ hd).ends
  case isFalse => exact fpCopy_ends _ hd

/-- Every instruction of two sources reads them, and then ends written. -/
theorem fpTwoSource_shape : ∀ row ∈ fpTwoSourceRows, ∃ k : State → FSrc → FpTarget × FpOperand × FpOperand → Res,
    ∀ (x y : FSrc) (d : FDst) (s : State),
      exec (row.2 x y d) s = s.commitThen (fpOperands s row.1 x y d) (k s x) ∧
        (TargetReady row.1 d → ∀ a b, EndsWritten s row.1 d (k s x (targetOf d, a, b))) := by
  unfold fpTwoSourceRows
  simp only [List.forall_mem_append, List.forall_mem_map, List.forall_mem_cons, List.not_mem_nil, false_implies,
    implies_true, and_true]
  refine ⟨⟨fun row hr => ⟨_, fun x y d s => ⟨fpBinary_row row hr x y d s, fun hd a b => (fpDeliver_delivers _ hd).ends⟩⟩,
    fun row hr => ?_⟩, ⟨_, fun x y d s => ⟨rfl, fun hd a b => fpRemainder_ends _ _ _ hd⟩⟩,
    ⟨_, fun x y d s => ⟨rfl, fun hd a b => fpRemainder_ends _ _ _ hd⟩⟩,
    ⟨_, fun x y d s => ⟨rfl, fun hd a b => fpCopy_ends _ hd⟩⟩, ⟨_, fun x y d s => ⟨rfl, fun hd a b => fpCopy_ends _ hd⟩⟩⟩
  obtain ⟨g, hg⟩ := transBinary_row row hr
  exact ⟨_, fun x y d s => ⟨hg x y d s, fun hd a b => (fpDeliver_delivers _ hd).ends⟩⟩

/-- Every instruction of one source reads it, and then ends written. -/
theorem fpOneSource_shape : ∀ row ∈ fpOneSourceRows, ∃ k : State → FSrc → FpTarget × FpOperand → Res,
    ∀ (x : FSrc) (d : FDst) (s : State),
      exec (row.2 x d) s = s.commitThen (fpOperand s row.1 1 x d) (k s x) ∧
        (TargetReady row.1 d → ∀ a, EndsWritten s row.1 d (k s x (targetOf d, a))) := by
  unfold fpOneSourceRows
  simp only [List.forall_mem_append, List.forall_mem_map, List.forall_mem_cons, List.not_mem_nil, false_implies,
    implies_true, and_true]
  refine ⟨⟨fun row hr => ⟨_, fun x d s => ⟨fpUnary_row row hr x d s, fun hd a => (fpDeliver_delivers _ hd).ends⟩⟩,
    fun row hr => ?_⟩, ⟨_, fun x d s => ⟨rfl, fun hd a => fpMove_ends x a hd⟩⟩,
    ⟨_, fun x d s => ⟨rfl, fun hd a => fpMove_ends x a hd⟩⟩, ⟨_, fun x d s => ⟨rfl, fun hd a => fpMove_ends x a hd⟩⟩⟩
  obtain ⟨g, hg⟩ := transUnary_row row hr
  exact ⟨_, fun x d s => ⟨hg x d s, fun hd a => (fpDeliver_delivers _ hd).ends⟩⟩

/-! ### Conversions to integers -/

/-- What a conversion does with the words of its integer (R475, R504). -/
def State.deliverInt (dst : Dst) (ws : List Word) (overflow inexact : Bool) (s : State) : Res :=
  s.commitThen (dstWriteWords dst ws s) fun t =>
    if overflow then integerOverflow s.ip (t.advance 4#32)
    else fpFinish s { inexact := inexact } fun u => u.commit ((dstWriteWords dst ws u).map (State.advance 4#32))

/-- A conversion reads its source and delivers the integer it rounds to. -/
theorem fpToInt_eq (s : State) (rc : BitVec 2) (n : Nat) (x : FSrc) (e : Dst) (h : dstStarts n e = true) :
    fpToInt s rc n x e = s.commitThen (fpSource s .real 1 x) fun a =>
      s.deliverInt e (intResult s.serial n (roundToInt rc a.num)).1 (intResult s.serial n (roundToInt rc a.num)).2
        ((roundToInt rc a.num).elim false Prod.snd) := by
  rw [fpToInt, ifAligned, h, if_pos rfl]
  rfl

/-- What is written does not depend on AC as it was. -/
theorem Writes.forgetAc {r : Reg} {ws : List Word} {ac ac' : ArithControls} {len : Word} {t : State}
    (h : Writes { s with ac := ac' } r ws ac len t) : Writes s r ws ac len t := by
  obtain ⟨hg, ha, hi, hf, hb, hs, ht, hsp⟩ := h
  refine ⟨⟨hg.written, hg.others⟩, ha, hi, hf, hb, hs, ht, ?_⟩
  cases hsp
  constructor <;> assumption

/-- The outcomes of a delivered integer: exact or inexact, or out of range. -/
theorem deliverInt_reg {r : Reg} {ws : List Word} (hl : ws.length ≤ 32)
    (ha : Reg.startsGroup (groupSize ws.length) r = true) (inexact : Bool) :
    ((Masked s { inexact := inexact } → Gives (s.deliverInt (.reg r) ws false inexact)
        (Writes s r ws (withFlags s.ac { inexact := inexact }) 4#32)) ∧
      Traps s { inexact := inexact } (s.deliverInt (.reg r) ws false inexact)) ∧
    (s.ac.om = true → Gives (s.deliverInt (.reg r) ws true inexact) (Writes s r ws { s.ac with oflow := true } 4#32)) ∧
    (s.ac.om = false → ∃ t, Writes s r ws s.ac 4#32 t ∧
      s.deliverInt (.reg r) ws true inexact = takeFault .integerOverflow s.ip t.ip t) := by
  have write : ∀ u : State, dstWriteWords (.reg r) ws u = .ok (u.setRegs r ws) := fun u => by
    simp only [dstWriteWords, aligned, ha, if_true]
  have fits : s.deliverInt (.reg r) ws false inexact =
      fpFinish s { inexact := inexact } fun u => u.commit ((dstWriteWords (.reg r) ws u).map (State.advance 4#32)) := by
    rw [State.deliverInt, write s]
    rfl
  have exceeds : s.deliverInt (.reg r) ws true inexact = integerOverflow s.ip ((s.setRegs r ws).advance 4#32) := by
    rw [State.deliverInt, write s]
    rfl
  have plain := writes_of_setRegs_ac (s := s) r ws hl 4#32
  have om : ((s.setRegs r ws).advance 4#32).ac.om = s.ac.om := by rw [plain.ac]
  refine ⟨⟨fun hm => ?_, fits ▸ fpFinish_traps _ _ _⟩, fun h => ?_, fun h => ⟨_, plain, ?_⟩⟩
  · rw [fits, fpFinish_masked _ hm, write]
    exact ⟨_, rfl, (writes_of_setRegs_ac r ws hl 4#32).forgetAc⟩
  · rw [exceeds, integerOverflow, om, h]
    refine ⟨_, rfl, ?_⟩
    rw [plain.ac]
    exact writes_of_setRegs r ws hl 4#32 _
  · rw [exceeds, integerOverflow, om, h]
    rfl

theorem deliverInt_delivers {r : Reg} {ws : List Word} (hl : ws.length ≤ 32)
    (ha : Reg.startsGroup (groupSize ws.length) r = true) (overflow inexact : Bool) :
    DeliversInteger s r ws (s.deliverInt (.reg r) ws overflow inexact) := by
  obtain ⟨fits, exceeds⟩ := deliverInt_reg (s := s) hl ha inexact
  cases overflow with
  | true => exact .inr exceeds
  | false =>
    refine .inl ⟨{ inexact := inexact }, ?_, fits⟩
    cases inexact <;> simp

/-- A literal destination is an invalid opcode, or is read as some register (U2, log 31). -/
theorem strayWrite_cases (s : State) :
    (∀ u : State, u.serial = s.serial → strayWrite u = .raise .invalidOpcode) ∨
    ∀ u : State, u.serial = s.serial →
      strayWrite u = .ok (u.setReg (Config.strayRegister s.serial) (Config.freeWord s.serial 101)) := by
  unfold strayWrite
  by_cases h : Config.reservedDestFaults s.serial = true
  · exact .inl fun u hu => by rw [hu, if_pos h]
  · exact .inr fun u hu => by rw [hu, if_neg h]

theorem startsGroup_one (r : Reg) : Reg.startsGroup (groupSize 1) r = true :=
  startsGroup_iff.2 (Nat.mod_one _)

theorem fpFinish_congr {x : FpExceptions} {k k' : State → Res} (h : ∀ u : State, u.serial = s.serial → k u = k' u) :
    fpFinish s x k = fpFinish s x k' := by
  unfold fpFinish
  extract_lets
  repeat' refine if_congr Iff.rfl rfl ?_
  exact h _ rfl

/-- What a literal destination of an integer result comes to (U2). -/
theorem deliverInt_lit (n : BitVec 5) (ws : List Word) (overflow inexact : Bool) :
    s.deliverInt (.lit n) ws overflow inexact = takeFault .invalidOpcode s.ip s.ip s ∨
      s.deliverInt (.lit n) ws overflow inexact =
        s.deliverInt (.reg (Config.strayRegister s.serial)) [Config.freeWord s.serial 101] overflow inexact := by
  rcases strayWrite_cases s with h | h
  · refine .inl ?_
    rw [State.deliverInt, dstWriteWords, h s rfl]
    rfl
  · have same : ∀ u : State, u.serial = s.serial → dstWriteWords (.lit n) ws u =
        dstWriteWords (.reg (Config.strayRegister s.serial)) [Config.freeWord s.serial 101] u := by
      intro u hu
      refine (h u hu).trans (Eq.symm ?_)
      rw [dstWriteWords, aligned]
      exact if_pos (startsGroup_one _)
    refine .inr ?_
    unfold State.deliverInt
    rw [same s rfl]
    congr 1
    funext t
    rw [fpFinish_congr fun u hu => by rw [same u hu]]

theorem length_wordsOfInt (n : Nat) (i : Int) : (wordsOfInt n i).length = n := by
  simp [wordsOfInt]

theorem length_intResult (k n : Nat) (i : Option (Int × Bool)) : (intResult k n i).1.length = n := by
  cases i with
  | none => simp [intResult]
  | some i => exact length_wordsOfInt n i.1

/-- Every conversion to an integer, with the number of words and the rounding it has. -/
theorem fpToInt_row : ∀ conv ∈ fpToIntRows, ∃ n, (n = 1 ∨ n = 2) ∧ ∀ s : State, ∃ rc : BitVec 2, ∀ (x : FSrc) (e : Dst),
    exec (conv x e) s = fpToInt s rc n x e := by
  unfold fpToIntRows
  simp only [List.forall_mem_cons, List.not_mem_nil, false_implies, implies_true, and_true]
  exact ⟨⟨1, .inl rfl, fun s => ⟨_, fun _ _ => rfl⟩⟩, ⟨2, .inr rfl, fun s => ⟨_, fun _ _ => rfl⟩⟩,
    ⟨1, .inl rfl, fun s => ⟨_, fun _ _ => rfl⟩⟩, ⟨2, .inr rfl, fun s => ⟨_, fun _ _ => rfl⟩⟩⟩

/-- An integer delivered anywhere: an invalid opcode, or some words in some registers. -/
theorem deliverInt_lands {e : Dst} {n : Nat} {ws : List Word} (hn : n = 1 ∨ n = 2) (hl : ws.length = n)
    (he : dstStarts n e = true) (overflow inexact : Bool) :
    s.deliverInt e ws overflow inexact = takeFault .invalidOpcode s.ip s.ip s ∨
      ∃ r ws', ws'.length ≤ 2 ∧ DeliversInteger s r ws' (s.deliverInt e ws overflow inexact) := by
  cases e with
  | reg r => exact .inr ⟨r, ws, by omega, deliverInt_delivers (by omega) (by rw [hl]; exact he) _ _⟩
  | lit v =>
    refine (deliverInt_lit v ws overflow inexact).imp id fun h =>
      ⟨Config.strayRegister s.serial, [Config.freeWord s.serial 101], by simp, ?_⟩
    rw [h]
    exact deliverInt_delivers (ws := [Config.freeWord s.serial 101]) (by simp) (startsGroup_one _) _ _

/-! ### The claim -/

theorem fpFinish_setCc (exc : FpExceptions) (c : BitVec 3) :
    let x := fpFinish s exc fun t => .next ((t.setCc c).advance 4#32)
    (Masked s exc → Gives x (Writes s 0#5 [] { withFlags s.ac exc with cc := c } 4#32)) ∧ Traps s exc x := by
  refine ⟨fun hm => ?_, fpFinish_traps _ _ _⟩
  rw [fpFinish_masked _ hm]
  exact ⟨_, rfl, writes_of_ac 0#5 4#32 _⟩

/-- A comparison reads its sources, and then leaves a condition code or traps. -/
theorem fpCompare_coded {x y : FSrc} (b : Bool) (hx : SourceStarts f x ∨ ReservedCode x)
    (hy : SourceStarts f y ∨ ReservedCode y) :
    fpCompare s f b x y = takeFault .invalidOpcode s.ip s.ip s ∨
      fpCompare s f b x y = takeFault .fpReservedEncoding s.ip s.ip s ∨
      ∃ c exc, (Masked s exc → Gives (fpCompare s f b x y) (Writes s 0#5 [] { withFlags s.ac exc with cc := c } 4#32)) ∧
        Traps s exc (fpCompare s f b x y) := by
  rw [fpCompare, ifAligned, ReservedCode.starts hx, ReservedCode.starts hy, if_pos (by rfl)]
  rcases twoSources_coded (s := s) (fun a b => (a, b)) hx hy with ⟨p, q, e⟩ | e | e <;> rw [e]
  · rw [State.commitThen_ok]
    exact .inr (.inr ⟨_, _, fpFinish_setCc _ _⟩)
  · exact .inl rfl
  · exact .inr (.inl rfl)

theorem fpCompare_bad {x y : FSrc} (b : Bool) (hx : SourceStarts f x) (hy : SourceStarts f y)
    (hb : BadEncoding s f x ∨ BadEncoding s f y) :
    fpCompare s f b x y = takeFault .fpReservedEncoding s.ip s.ip s := by
  rw [fpCompare, ifAligned, hx.starts, hy.starts, if_pos (by rfl)]
  by_cases hbx : BadEncoding s f x
  · rw [fpSource_bad 1 hx hbx]
    rfl
  · rw [fpSource_ready 1 ((hx.ready_or_bad).resolve_right hbx), Eff.bind_ok, fpSource_bad 2 hy (hb.resolve_left hbx)]
    rfl

/-- A reserved code that is classified is an invalid opcode, or has some class (U1). -/
theorem fpClassify_reserved {x : FSrc} (h : ReservedCode x) :
    fpClassify s f x = takeFault .invalidOpcode s.ip s.ip s ∨
      ∃ v : BitVec 4, Gives (fpClassify s f x) (Writes s 0#5 [] { s.ac with ast := v } 4#32) := by
  obtain ⟨c, rfl⟩ := h
  rw [fpClassify, readFSrc]
  split
  case isTrue => exact .inl rfl
  case isFalse => exact .inr ⟨_, _, rfl, writes_of_ac 0#5 4#32 _⟩

/-- What reading two coded sources leaves an instruction to do. -/
theorem endsWritten_of_coded {α : Type} {d : FDst} {z : Eff α} {k : α → Res}
    (h : (∃ a, z = .ok a ∧ EndsWritten s f d (k a)) ∨ z = .raise .invalidOpcode ∨ z = .raise .fpReservedEncoding) :
    s.commitThen z k = takeFault .invalidOpcode s.ip s.ip s ∨ s.commitThen z k = takeFault .fpReservedEncoding s.ip s.ip s ∨
      EndsWritten s f d (s.commitThen z k) := by
  rcases h with ⟨a, e, h⟩ | e | e <;> rw [e]
  · exact .inr (.inr h)
  · exact .inl rfl
  · exact .inr (.inl rfl)

theorem fpScaling_reserved {x : FSrc} {d : FDst} (n : Int) (hx : SourceStarts f x ∨ ReservedCode x) (hd : TargetReady f d) :
    fpScaling s f n x d = takeFault .invalidOpcode s.ip s.ip s ∨
      fpScaling s f n x d = takeFault .fpReservedEncoding s.ip s.ip s ∨ EndsWritten s f d (fpScaling s f n x d) := by
  unfold fpScaling
  refine endsWritten_of_coded ((fpOperand_coded (s := s) 2 hx hd).imp (fun ⟨a, e⟩ => ⟨_, e, ?_⟩) id)
  exact (fpDeliver_delivers _ hd).ends

theorem fpScaling_bad {x : FSrc} {d : FDst} (n : Int) (hx : SourceStarts f x) (hb : BadEncoding s f x)
    (hd : TargetReady f d) : fpScaling s f n x d = takeFault .fpReservedEncoding s.ip s.ip s := by
  rw [fpScaling, fpOperand_bad 2 hx hb hd]
  rfl

/-- Settles O55. -/
theorem reservedOperandsFault : Obligations.ReservedOperandsFault := by
  intro s x y z d e faults opcode undefined coded
  refine ⟨fun row hr hd => ?_, fun row hr hd => ?_, ?_, fun row hr => ⟨fun hx hy hb => ?_, fun hx hy _ => ?_⟩, ?_,
    fun conv hc he => ?_⟩
  · obtain ⟨k, hk⟩ := fpTwoSource_shape row hr
    obtain ⟨run, ends⟩ := hk x y d s
    refine ⟨fun hx hy hb => ?_, fun hx hy _ => ?_⟩
    · change exec (row.2 x y d) s = _
      rw [run, fpOperands_bad hx hy hb hd]
      rfl
    · have h := endsWritten_of_coded (k := k s x)
        ((fpOperands_coded (s := s) hx hy hd).imp (fun ⟨a, b, e⟩ => ⟨_, e, ends hd a b⟩) id)
      rw [← run] at h
      exact h
  · obtain ⟨k, hk⟩ := fpOneSource_shape row hr
    obtain ⟨run, ends⟩ := hk x d s
    refine ⟨fun hx hb => ?_, fun hx => ?_⟩
    · change exec (row.2 x d) s = _
      rw [run, fpOperand_bad 1 hx hb hd]
      rfl
    · have h := endsWritten_of_coded (k := k s x)
        ((fpOperand_coded (s := s) 1 (.inr hx) hd).imp (fun ⟨a, e⟩ => ⟨_, e, ends hd a⟩) id)
      rw [← run] at h
      exact h
  · simp only [List.forall_mem_cons, List.not_mem_nil, false_implies, implies_true, and_true]
    exact ⟨fun hd => ⟨fun hy hb => fpScaling_bad _ hy hb hd, fun hy => fpScaling_reserved _ (.inr hy) hd⟩,
      fun hd => ⟨fun hy hb => fpScaling_bad _ hy hb hd, fun hy => fpScaling_reserved _ (.inr hy) hd⟩⟩
  · change exec (row.2.2 x y) s = _
    rw [fpCompare_row row hr]
    exact fpCompare_bad _ hx hy hb
  · have h := fpCompare_coded (s := s) row.2.1 hx hy
    rw [← fpCompare_row row hr] at h
    exact h
  · simp only [List.forall_mem_cons, List.not_mem_nil, false_implies, implies_true, and_true]
    exact ⟨fun hx => fpClassify_reserved hx, fun hx => fpClassify_reserved hx⟩
  · obtain ⟨n, hn, run⟩ := fpToInt_row conv hc
    obtain ⟨rc, run⟩ := run s
    have hstart : dstStarts n e = true := by
      cases e with
      | lit v => rfl
      | reg r =>
        rcases hn with rfl | rfl
        · exact startsGroup_one r
        · exact startsGroup_iff.2 (he r rfl)
    have conv_eq := (run x e).trans (fpToInt_eq s rc n x e hstart)
    refine ⟨fun hx hb => ?_, fun hx => ?_⟩
    · refine conv_eq.trans ?_
      rw [fpSource_bad 1 hx hb]
      rfl
    · rcases fpSource_coded (s := s) (f := .real) 1 (.inr hx) with ⟨a, ha⟩ | ha | ha <;> rw [ha] at conv_eq
      · rw [State.commitThen_ok] at conv_eq
        have h := deliverInt_lands (s := s) (e := e) hn (length_intResult s.serial n (roundToInt rc a.num)) hstart
          (intResult s.serial n (roundToInt rc a.num)).2 ((roundToInt rc a.num).elim false Prod.snd)
        rw [← conv_eq] at h
        exact h.imp id .inr
      · exact .inl conv_eq
      · exact .inr (.inl conv_eq)

end Sys2Proof.Machine
end

section
/-! SUPPORT. Reserved destinations: literals and reserved floating-point codes (R140, U2). -/

namespace Sys2Proof.Machine

variable {s : State} {f : FpFormat}

/-! ### Literal destinations -/

/-- An invalid opcode, or an outcome with property `P` (U2). -/
def OpcodeOr (s : State) (P : State → Prop) (x : Res) : Prop := x = takeFault .invalidOpcode s.ip s.ip s ∨ Gives x P

/-- An instruction that goes on after a literal destination was written: an invalid opcode, or some register written. -/
theorem stray_commitThen (s : State) (k : State → Res) :
    s.commitThen (strayWrite s) k = takeFault .invalidOpcode s.ip s.ip s ∨
      ∃ r v, s.commitThen (strayWrite s) k = k (s.setReg r v) := by
  rcases strayWrite_cases s with h | h <;> rw [h s rfl]
  · exact .inl rfl
  · exact .inr ⟨_, _, rfl⟩

theorem stray_commit {P : State → Prop} (k : State → State) (h : ∀ r v, P (k (s.setReg r v))) :
    OpcodeOr s P (s.commit ((strayWrite s).map k)) := by
  rcases strayWrite_cases s with e | e <;> rw [e s rfl]
  · exact .inl rfl
  · exact .inr ⟨_, rfl, h _ _⟩

/-- The outcome of an instruction of one result. -/
def SomeWord (s : State) (t : State) : Prop := ∃ r v, Writes s r [v] s.ac 4#32 t

/-- The outcome of one of a result and a condition code. -/
def SomeWordCc (s : State) (t : State) : Prop := ∃ r v c, Writes s r [v] { s.ac with cc := c } 4#32 t

theorem result_lit (n : BitVec 5) (w : Word) : OpcodeOr s (SomeWord s) (s.result (.lit n) w) :=
  stray_commit _ fun r v => ⟨r, v, writes_of_setReg_ac r v 4#32⟩

theorem resultWords_lit (n : BitVec 5) (ws : List Word) : OpcodeOr s (SomeWord s) (s.resultWords (.lit n) ws) :=
  stray_commit _ fun r v => ⟨r, v, writes_of_setReg_ac r v 4#32⟩

theorem resultCc_lit (n : BitVec 5) (w : Word) (c : BitVec 3) : OpcodeOr s (SomeWordCc s) (s.resultCc (.lit n) w c) := by
  refine stray_commit _ fun r v => ⟨r, v, c, ?_⟩
  obtain ⟨t, e, h⟩ := s.resultCc_writes r v c
  rw [State.resultCc_reg] at e
  cases e
  exact h

theorem scanResult_lit (n : BitVec 5) (w : Word) : OpcodeOr s (SomeWordCc s) (scanResult s (.lit n) w) := by
  unfold scanResult
  split
  case h_1 => exact resultCc_lit n _ _
  case h_2 => exact resultCc_lit n _ _

theorem execSynld_lit (x : Src) (n : BitVec 5) : OpcodeOr s (SomeWordCc s) (execSynld x (.lit n) s) := by
  unfold execSynld
  extract_lets a
  split
  case isTrue => exact resultCc_lit n _ _
  case isFalse =>
    split
    case isTrue => exact resultCc_lit n _ _
    case isFalse => exact resultCc_lit n _ _

/-- An invalid opcode, or an integer outcome with some register written (U2, R210). -/
def OpcodeOrInteger (s : State) (fits : Prop) (x : Res) : Prop :=
  x = takeFault .invalidOpcode s.ip s.ip s ∨ ∃ r v, IntegerOutcome s r v fits x

theorem resultOverflow_lit (n : BitVec 5) (w : Word) (b : Bool) :
    OpcodeOrInteger s (b = false) (s.resultOverflow (.lit n) w b) := by
  refine (stray_commitThen s _).imp id fun ⟨r, v, e⟩ => ⟨r, v, ?_⟩
  have h := s.resultOverflow_outcome r v b
  rw [show s.resultOverflow (.lit n) w b = s.resultOverflow (.reg r) v b from e]
  exact h

/-- R210: with a literal destination, an invalid opcode, or an overflow exactly when the result does not fit. -/
theorem resultOverflow_lit_fits (n : BitVec 5) (w : Word) (i : Int) :
    OpcodeOrInteger s (-(2 ^ 31 : Int) ≤ i ∧ i < 2 ^ 31) (s.resultOverflow (.lit n) w (!fitsInt 31 i)) :=
  (resultOverflow_lit n w _).imp id fun ⟨r, v, h⟩ =>
    ⟨r, v, h.congr (by rw [Bool.not_eq_false', fitsInt_iff])⟩

theorem moveGroup_lit {x : Src} {m : Nat} {ws : List Word} (n : BitVec 5) (h : srcWords s m x = .ok ws) :
    OpcodeOr s (SomeWord s) (moveGroup s x (.lit n) m) := by
  rw [moveGroup, h, Eff.bind_ok]
  exact resultWords_lit n ws

/-- `ediv` looks at a literal destination before the divisor (log 80). -/
theorem execEdiv_lit {x y : Src} {ws : List Word} (n : BitVec 5) (h : srcWords s 2 y = .ok ws) :
    execEdiv x y (.lit n) s = takeFault .invalidOpcode s.ip s.ip s ∨
      ∃ ws', execEdiv x y (.lit n) s = unlessZero s (srcVal s x) (s.resultWords (.lit n) ws') := by
  rw [execEdiv, h, Eff.bind_ok, dstWriteWords]
  rcases strayWrite_cases s with e | e <;> rw [e s rfl]
  · exact .inl rfl
  · exact .inr ⟨_, rfl⟩

/-- What a locked update with a literal destination leaves (R367, U2). -/
theorem atomicUpdate_lit (s : State) (x : Src) (n : BitVec 5) (change : Word → Word) :
    let a := srcVal s x &&& 0xFFFFFFFC#32
    (s.readable a 4 = true → OpcodeOr s (fun t => ∃ r v, WritesGroup s r [v] t ∧
      t.Holds a (bytesOfWord (change (s.readWord a))) ∧ State.SameOutside a 4 s t ∧ t.ip = s.ip + 4#32 ∧
      t.ac = s.ac ∧ t.fps = s.fps ∧ SameSpecial s t) (atomicUpdate s x (.lit n) change)) ∧
    (s.readable a 4 = false → atomicUpdate s x (.lit n) change = takeFault .badAccess s.ip s.ip s) := by
  intro a
  have unfolded : atomicUpdate s x (.lit n) change = s.commit ((s.loadWord a).bind fun old =>
      (strayWrite (s.writeWord a (change old))).map (State.advance 4#32)) := rfl
  refine ⟨fun hr => ?_, fun hr => ?_⟩ <;> rw [unfolded]
  · have hm := State.writeWord_memStep a (change (s.readWord a)) s
    rw [State.loadWord_ok hr, Eff.bind_ok]
    rcases strayWrite_cases s with e | e <;> rw [e _ hm.serial]
    · exact .inl rfl
    · have holds := State.writeBytes_holds s a (bytesOfWord (change (s.readWord a))) (by simp)
      have w := writes_of_setReg_ac (s := s.writeWord a (change (s.readWord a))) (Config.strayRegister s.serial)
        (Config.freeWord s.serial 101) 4#32
      refine .inr ⟨_, rfl, _, _, ⟨w.group.written, fun q hq => (w.group.others q hq).trans (hm.contents q)⟩,
        fun i b hb hk => ?_, fun z hz => ?_, by rw [w.ip, hm.ip], by rw [w.ac, hm.ac], by rw [w.fps, hm.fps],
        hm.sameSpecial.trans w.special⟩
      · rw [w.bytes]
        exact holds i b hb (by rwa [w.special.memMap] at hk)
      · rw [w.bytes]
        exact State.writeWord_sameOutside s a _ z hz
  · rw [State.loadWord_bad hr]
    rfl

/-! ### Reserved floating-point destinations -/

/-- A result that strays writes one floating-point register or one register (U2). -/
theorem stray_writes (f : FpFormat) (bits : Ext) (ac : ArithControls) :
    FpStrays s ac ((FpTarget.stray.write f bits { s with ac := ac }).advance 4#32) := by
  unfold FpTarget.write
  dsimp only
  split
  case h_1 k _ => exact .inl ⟨k, _, targetOf_write (f := .extended) (d := .fp k) _ ac trivial⟩
  case h_2 => exact .inr ⟨_, _, (writes_of_setReg_ac (s := { s with ac := ac }) _ _ 4#32).forgetAc⟩

/-- The same with another arithmetic status beside it. -/
theorem FpStrays.setStatus {ac : ArithControls} {t : State} (h : FpStrays s ac t) (v : BitVec 4) :
    FpStrays s { ac with ast := v } { t with ac := { t.ac with ast := v } } := by
  refine h.imp (fun ⟨k, bits, h⟩ => ⟨k, bits, h.setStatus v⟩) fun ⟨r, w, h⟩ => ⟨r, w, ?_⟩
  obtain ⟨hg, ha, hi, hf, hb, hs, ht, hsp⟩ := h
  refine ⟨⟨hg.written, hg.others⟩, by rw [ha], hi, hf, hb, hs, ht, ?_⟩
  cases hsp
  constructor <;> assumption

/-- A stray result is rounded to the instruction's own format (log 87). -/
theorem fpDeliver_strays (f : FpFormat) (r : FpResult) :
    let exc := deliveredExceptions f s.ac.rc r
    (Masked s exc → Gives (fpDeliver s f .stray r) (FpStrays s (withFlags s.ac exc))) ∧
      Traps s exc (fpDeliver s f .stray r) := by
  intro exc
  have run : fpDeliver s f .stray r = fpFinish s exc fun t =>
      .next ((FpTarget.stray.write f (deliveredBits f s.ac.rc r) t).advance 4#32) := rfl
  rw [run]
  refine ⟨fun hm => ?_, fpFinish_traps _ _ _⟩
  rw [fpFinish_masked _ hm]
  exact ⟨_, rfl, stray_writes f _ _⟩

theorem fpTarget_stray (f : FpFormat) (c : BitVec 5) :
    fpTarget s f (.reserved c) = .raise .invalidOpcode ∨ fpTarget s f (.reserved c) = .ok .stray := by
  unfold fpTarget
  dsimp only
  split
  case isTrue => exact .inl rfl
  case isFalse => exact .inr rfl

theorem fpOperand_stray {x : FSrc} (idx : Nat) (c : BitVec 5) (hx : SourceReady s f x) :
    fpOperand s f idx x (.reserved c) = .raise .invalidOpcode ∨
      fpOperand s f idx x (.reserved c) = .ok (.stray, sourceOperand s f x) := by
  simp only [fpOperand, ifAligned, fdstStarts, fsrcStarts_of_ready hx, Bool.and_self, if_true]
  rcases fpTarget_stray (s := s) f c with e | e <;> rw [e]
  · exact .inl rfl
  · rw [Eff.bind_ok, fpSource_ready idx hx]
    exact .inr rfl

theorem fpOperands_stray {x y : FSrc} (c : BitVec 5) (hx : SourceReady s f x) (hy : SourceReady s f y) :
    fpOperands s f x y (.reserved c) = .raise .invalidOpcode ∨
      fpOperands s f x y (.reserved c) = .ok (.stray, sourceOperand s f x, sourceOperand s f y) := by
  simp only [fpOperands, ifAligned, fdstStarts, fsrcStarts_of_ready hx, fsrcStarts_of_ready hy, Bool.and_self, if_true]
  rcases fpTarget_stray (s := s) f c with e | e <;> rw [e]
  · exact .inl rfl
  · rw [Eff.bind_ok, fpSource_ready 1 hx, Eff.bind_ok, fpSource_ready 2 hy]
    exact .inr rfl

/-- An invalid opcode, or an end with the exceptions `exc`. -/
def Lands (s : State) (exc : FpExceptions) (P : State → Prop) (x : Res) : Prop :=
  x = takeFault .invalidOpcode s.ip s.ip s ∨ ((Masked s exc → Gives x P) ∧ Traps s exc x)

/-- A result before rounding that goes to a reserved destination. -/
def Floats (s : State) (f : FpFormat) (r : FpResult) (x : Res) : Prop :=
  Lands s (deliveredExceptions f s.ac.rc r) (FpStrays s (withFlags s.ac (deliveredExceptions f s.ac.rc r))) x

theorem commitThen_lands {α : Type} {z : Eff α} {k : α → Res} {a : α} {exc : FpExceptions} {P : State → Prop}
    (h : z = .raise .invalidOpcode ∨ z = .ok a) (hk : (Masked s exc → Gives (k a) P) ∧ Traps s exc (k a)) :
    Lands s exc P (s.commitThen z k) := by
  rcases h with h | h <;> rw [h]
  · exact .inl rfl
  · exact .inr hk

theorem fpBinary_floats {x y : FSrc} (op : Nat → BitVec 2 → FpNum → FpNum → FpResult) (c : BitVec 5)
    (hx : SourceReady s f x) (hy : SourceReady s f y) :
    Floats s f (twoSourceResult s f (op s.serial s.ac.rc) x y) (fpBinary s f op x y (.reserved c)) :=
  commitThen_lands (fpOperands_stray c hx hy) (fpDeliver_strays f _)

theorem fpUnary_floats {x : FSrc} (op : Nat → BitVec 2 → FpNum → FpResult) (c : BitVec 5) (hx : SourceReady s f x) :
    Floats s f (oneSourceResult s f (op s.serial s.ac.rc) x) (fpUnary s f op x (.reserved c)) :=
  commitThen_lands (fpOperand_stray 1 c hx) (fpDeliver_strays f _)

theorem fpScaling_floats {x : FSrc} (n : Int) (c : BitVec 5) (hx : SourceReady s f x) :
    Floats s f (oneSourceResult s f (fpScale n) x) (fpScaling s f n x (.reserved c)) :=
  commitThen_lands (fpOperand_stray 2 c hx) (fpDeliver_strays f _)

theorem transUnary_floats {x : FSrc} (g : FpTarget → FpNum → FpResult) (c : BitVec 5) (hx : SourceReady s f x) :
    Floats s f (oneSourceResult s f (g .stray) x) (transUnary s f g x (.reserved c)) :=
  commitThen_lands (fpOperand_stray 1 c hx) (fpDeliver_strays f _)

theorem transBinary_floats {x y : FSrc} (g : FpTarget → FpNum → FpNum → FpResult) (c : BitVec 5) (hx : SourceReady s f x)
    (hy : SourceReady s f y) :
    Floats s f (twoSourceResult s f (g .stray) x y) (transBinary s f g x y (.reserved c)) :=
  commitThen_lands (fpOperands_stray c hx hy) (fpDeliver_strays f _)

theorem fpFromInt_floats (i : Int) (c : BitVec 5) :
    Floats s .real { num := .ofInt i } (fpFromInt s (.ok i) (.reserved c)) := by
  rcases fpTarget_stray (s := s) .real c with e | e
  · refine .inl ?_
    rw [fpFromInt, Eff.bind_ok, e]
    rfl
  · refine .inr ?_
    rw [fpFromInt, Eff.bind_ok, e, Eff.map_ok, State.commitThen_ok]
    exact fpDeliver_strays .real _

/-- A remainder that strays leaves AC.as undefined too. -/
theorem fpRemainder_floats {x y : FSrc} (c : BitVec 5) (hx : SourceReady s f x) (hy : SourceReady s f y) :
    let exc := deliveredExceptions f s.ac.rc (twoSourceResult s f (fpRem s.serial s.ac.rc) x y)
    Lands s exc (fun t => ∃ ast, FpStrays s { withFlags s.ac exc with ast := ast } t)
      (fpRemainder s f x y (.reserved c)) := by
  intro exc
  refine (fpOperands_stray c hx hy).imp (fun e => ?_) fun e => ?_
  · rw [fpRemainder, e]
    rfl
  · have run : ∃ v : BitVec 4, fpRemainder s f x y (.reserved c) = fpFinish s exc fun t =>
        .next (((FpTarget.stray.write f (deliveredBits f s.ac.rc (twoSourceResult s f (fpRem s.serial s.ac.rc) x y)) t).setStatus
          v).advance 4#32) := by
      refine ⟨(Config.freeWord s.serial 120).extractLsb' 0 4, ?_⟩
      have hi : (twoSourceResult s f (fpRem s.serial s.ac.rc) x y).exc.inexact = false := remainderResult_inexact _ _
      rw [fpRemainder, e, State.commitThen_ok]
      simp only [exc, deliveredExceptions, hi, Bool.or_false]
      rfl
    obtain ⟨v, run⟩ := run
    rw [run]
    refine ⟨fun hm => ?_, fpFinish_traps _ _ _⟩
    rw [fpFinish_masked _ hm]
    exact ⟨_, rfl, v, (stray_writes f _ _).setStatus v⟩

theorem fpMove_strays {x : FSrc} (c : BitVec 5) (hx : SourceReady s f x) :
    if movesConvert f x (.reserved c)
    then Floats s f (oneSourceResult s f (fun i => { num := i }) x) (fpMove s f x (.reserved c))
    else OpcodeOr s (FpStrays s s.ac) (fpMove s f x (.reserved c)) := by
  have h := fpOperand_stray 1 c hx
  have e := convertingMove_eq (f := f) x (.reserved c)
  change convertingMove f x .stray = _ at e
  split
  case isTrue hc =>
    refine commitThen_lands h ?_
    rw [if_pos (e.trans hc)]
    exact fpDeliver_strays f _
  case isFalse hc =>
    unfold fpMove
    refine h.imp (fun h => ?_) fun h => ?_ <;> rw [h]
    · rfl
    · rw [State.commitThen_ok, if_neg (by rwa [e])]
      exact ⟨_, rfl, stray_writes f _ s.ac⟩

theorem fpCopySign_strays {x y : FSrc} (b : Bool) (c : BitVec 5) (hx : SourceReady s .extended x)
    (hy : SourceReady s .extended y) : OpcodeOr s (FpStrays s s.ac) (fpCopySign s b x y (.reserved c)) := by
  unfold fpCopySign
  refine (fpOperands_stray c hx hy).imp (fun h => ?_) fun h => ?_ <;> rw [h]
  · rfl
  · exact ⟨_, rfl, stray_writes .extended _ s.ac⟩

/-- A conversion to an integer with a literal destination (U2). -/
theorem fpToInt_lit {u : FSrc} (rc : BitVec 2) (m : Nat) (n : BitVec 5) (hu : SourceReady s .real u) :
    fpToInt s rc m u (.lit n) = takeFault .invalidOpcode s.ip s.ip s ∨
      ∃ r w, DeliversInteger s r [w] (fpToInt s rc m u (.lit n)) := by
  rw [fpToInt_eq s rc m u (.lit n) rfl, fpSource_ready 1 hu, State.commitThen_ok]
  refine (deliverInt_lit n _ _ _).imp id fun h => ⟨Config.strayRegister s.serial, Config.freeWord s.serial 101, ?_⟩
  rw [h]
  exact deliverInt_delivers (ws := [Config.freeWord s.serial 101]) (by simp) (startsGroup_one _) _ _

/-! ### The claim -/

/-- Every row of the plain instructions writes some one word. -/
theorem plainRows_result : ∀ row ∈ plainRows, ∀ (x y : Src) (d : Dst) (s : State), ∃ v,
    exec (row.1 x y d) s = s.result d v := by
  unfold plainRows
  simp only [List.forall_mem_cons, List.not_mem_nil, false_implies, implies_true, and_true]
  refine ⟨?_, ?_, ?_, ?_, ?_, ?_, ?_, ?_, ?_, ?_, ?_, ?_, ?_, ?_, ?_, ?_, ?_, ?_, ?_, ?_, ?_⟩ <;>
    exact fun _ _ _ _ => ⟨_, rfl⟩

theorem srcWords_reg {q : Reg} {m : Nat} (h : q.toNat % groupSize m = 0) :
    srcWords s m (.reg q) = .ok (s.readRegs q m) := aligned_eq _ h

/-- What `modpc` leaves once some register holds the old PC (R363). -/
theorem modpc_changed (s : State) (r : Reg) (v new : Word) :
    let u := ({ s.setReg r v with pctl := new, proc := relabel s.pctl new s.proc } : State).advance 4#32
    Writes s r [v] s.ac 4#32 { u with pctl := s.pctl, proc := s.proc } ∧ u.pctl = new ∧
      (new.extractLsb' 13 2 = s.pctl.extractLsb' 13 2 → u.proc = s.proc) := by
  intro u
  have w := writes_of_setReg_ac (s := s) r v 4#32
  have k := w.special
  exact ⟨⟨⟨w.group.written, w.group.others⟩, w.ac, w.ip, w.fps, w.bytes, w.stale, w.traced,
    ⟨k.cached, rfl, k.tctl, rfl, k.procControls, k.segTable, k.prcb, k.dispatchPort, k.intTable, k.intStack, k.region3,
    k.sysProcTable, k.faultTable, k.icr, k.bp0, k.bp1, k.memMap, k.restarted, k.env, k.serial⟩⟩, rfl,
    fun h => relabel_same h s.proc⟩

/-- `modtc` with some register written (R364). -/
theorem modtc_changed (s : State) (r : Reg) (v new : Word) :
    Writes s r [v] s.ac 4#32 { ({ s.setReg r v with tctl := new } : State).advance 4#32 with tctl := s.tctl } := by
  have w := writes_of_setReg_ac (s := s) r v 4#32
  have k := w.special
  exact ⟨⟨w.group.written, w.group.others⟩, w.ac, w.ip, w.fps, w.bytes, w.stale, w.traced,
    ⟨k.cached, k.pctl, rfl, k.proc, k.procControls, k.segTable, k.prcb, k.dispatchPort, k.intTable, k.intStack, k.region3,
    k.sysProcTable, k.faultTable, k.icr, k.bp0, k.bp1, k.memMap, k.restarted, k.env, k.serial⟩⟩

/-- Settles O56. -/
theorem reservedDestinations : Obligations.ReservedDestinations := by
  intro s x y n opcode outcome one withCode integer merged fits new changed a stores
  have nonzero : srcVal s x ≠ 0#32 → ∀ (k : Res) (P : Res → Prop), P k → P (unlessZero s (srcVal s x) k) :=
    fun h k P hk => by rwa [unlessZero_of_ne s k h]
  refine ⟨fun row hr => ?_, ?_, ?_, fun h0 => ⟨?_, ?_, fun v => ?_, fun q hq => ?_⟩, fun h0 v => ?_, fun v => ?_,
    fun q => ⟨fun hq => ?_, fun hq => ⟨?_, ?_⟩⟩, ?_, ?_, ?_, ?_, fun h0 => ?_, fun h0 hs => ?_, fun h0 hs => ?_,
    fun hr => ⟨?_, ?_⟩, fun hr => ?_, fun u v c => ?_⟩
  · obtain ⟨w, e⟩ := plainRows_result row hr x y (.lit n) s
    have h := result_lit (s := s) n w
    rw [← e] at h
    exact h
  · simp only [List.forall_mem_cons, List.not_mem_nil, false_implies, implies_true, and_true]
    exact ⟨result_lit n _, result_lit n _, result_lit n _, result_lit n _, result_lit n _, resultWords_lit n _,
      resultWords_lit n _⟩
  · simp only [List.forall_mem_cons, List.not_mem_nil, false_implies, implies_true, and_true]
    exact ⟨resultCc_lit n _ _, resultCc_lit n _ _, resultCc_lit n _ _, resultCc_lit n _ _, resultCc_lit n _ _,
      resultCc_lit n _ _, scanResult_lit n _, scanResult_lit n _, resultCc_lit n _ _, resultCc_lit n _ _,
      resultCc_lit n _ _, execSynld_lit x n⟩
  · simp only [List.forall_mem_cons, List.not_mem_nil, false_implies, implies_true, and_true]
    exact ⟨nonzero h0 _ (OpcodeOr s (SomeWord s)) (result_lit n _), nonzero h0 _ (OpcodeOr s (SomeWord s)) (result_lit n _),
      nonzero h0 _ (OpcodeOr s (SomeWord s)) (result_lit n _)⟩
  · have fits := tdiv_fits_iff (toInt_ne_zero h0) (toInt_bounds (srcVal s y))
    have quotient : ∀ w, OpcodeOrInteger s (¬ ((srcVal s y).toInt = -2 ^ 31 ∧ (srcVal s x).toInt = -1))
        (s.resultOverflow (.lit n) w (!fitsInt 31 ((srcVal s y).toInt.tdiv (srcVal s x).toInt))) := fun w =>
      (resultOverflow_lit_fits n w _).imp id fun ⟨r, v, h⟩ => ⟨r, v, h.congr fits⟩
    simp only [List.forall_mem_cons, List.not_mem_nil, false_implies, implies_true, and_true]
    exact ⟨nonzero h0 _ (OpcodeOrInteger s _) (quotient _), nonzero h0 _ (OpcodeOrInteger s _) (quotient _)⟩
  · refine (execEdiv_lit (x := x) (y := .lit v) n rfl).elim .inl fun ⟨ws, e⟩ => ?_
    have h := nonzero h0 _ (OpcodeOr s (SomeWord s)) (resultWords_lit n ws)
    rw [← e] at h
    exact h
  · refine (execEdiv_lit (x := x) n (srcWords_reg hq)).elim .inl fun ⟨ws, e⟩ => ?_
    have h := nonzero h0 _ (OpcodeOr s (SomeWord s)) (resultWords_lit n ws)
    rw [← e] at h
    exact h
  · have run : ∀ k, unlessZero s (srcVal s x) k = takeFault .zeroDivide s.ip s.ip s := fun k => if_pos h0
    simp only [List.forall_mem_cons, List.not_mem_nil, false_implies, implies_true, and_true]
    refine ⟨.inr (run _), .inr (run _), .inr (run _), .inr (run _), .inr (run _), ?_⟩
    refine (execEdiv_lit (x := x) (y := .lit v) n rfl).imp id fun ⟨ws, e⟩ => ?_
    exact e.trans (run _)
  · simp only [List.forall_mem_cons, List.not_mem_nil, false_implies, implies_true, and_true]
    exact ⟨moveGroup_lit n rfl, moveGroup_lit n rfl, moveGroup_lit n rfl⟩
  · exact moveGroup_lit n (srcWords_reg hq)
  · exact moveGroup_lit n (srcWords_reg hq)
  · exact moveGroup_lit n (srcWords_reg hq)
  · unfold integerRows
    simp only [List.forall_mem_cons, List.not_mem_nil, false_implies, implies_true, and_true]
    exact ⟨resultOverflow_lit_fits n _ _, resultOverflow_lit_fits n _ _, resultOverflow_lit_fits n _ _⟩
  · exact resultOverflow_lit_fits n _ _
  · exact ⟨_, ArithControls.toWord_ofWord _, stray_commit _ fun r v => ⟨r, v, writes_of_setReg r v 4#32 _⟩⟩
  · exact stray_commit _ fun r v => ⟨r, v, modtc_changed s r v _, rfl⟩
  · have run : exec (.modpc x y (.lit n)) s = s.result (.lit n) s.pctl := if_pos h0
    have h := result_lit (s := s) n s.pctl
    rw [← run] at h
    exact h
  · let k : State → State := fun t => ({ t with pctl := new, proc := relabel s.pctl new s.proc } : State).advance 4#32
    have run : exec (.modpc x y (.lit n)) s = s.commitThen (strayWrite s) fun t =>
        if priorityOf new < priorityOf s.pctl then thenCheckPending (k t) else .next (k t) :=
      (if_neg h0).trans (if_neg (by rw [hs]; decide))
    have changes : ∀ r v, changed (k (s.setReg r v)) := fun r v => ⟨r, v, modpc_changed s r v new⟩
    refine ⟨fun hp => ?_, fun hp => ?_⟩
    · refine (stray_commitThen s _).imp (fun e => run.trans e) fun ⟨r, v, e⟩ => ⟨_, (run.trans e).trans ?_, changes r v⟩
      exact if_neg (Nat.not_lt.2 hp)
    · refine (stray_commitThen s _).imp (fun e => run.trans e) fun ⟨r, v, e⟩ => ⟨_, changes r v, (run.trans e).trans ?_⟩
      exact if_pos hp
  · refine .inr ?_
    exact (if_neg h0).trans (if_pos hs)
  · exact (atomicUpdate_lit s x n _).1 hr
  · exact (atomicUpdate_lit s x n _).1 hr
  · simp only [List.forall_mem_cons, List.not_mem_nil, false_implies, implies_true, and_true]
    exact ⟨.inr ((atomicUpdate_lit s x n _).2 hr), .inr ((atomicUpdate_lit s x n _).2 hr)⟩
  · intro lands floats
    refine ⟨fun row hr hu hv => ?_, fun row hr hu => ?_, ?_, ?_, fun row hr hu => ?_, fun row hr hu hv => ?_,
      fun hu hv => ?_, ?_, ?_, fun q hq => ?_, fun w => ?_, fun hu conv hc => ?_⟩
    · have h := fpBinary_floats row.2.2 c hu hv
      rw [← fpBinary_row row hr] at h
      exact h
    · have h := fpUnary_floats row.2.2 c hu
      rw [← fpUnary_row row hr] at h
      exact h
    · simp only [List.forall_mem_cons, List.not_mem_nil, false_implies, implies_true, and_true]
      exact ⟨fun hu hv => fpRemainder_floats c hu hv, fun hu hv => fpRemainder_floats c hu hv⟩
    · have count : ∀ q, x = .reg q → scaleCount s x = (s.readReg q).toInt := by
        rintro q rfl
        rfl
      simp only [List.forall_mem_cons, List.not_mem_nil, false_implies, implies_true, and_true]
      exact ⟨fun hv => ⟨scaleCount s x, count, fpScaling_floats _ c hv⟩,
        fun hv => ⟨scaleCount s x, count, fpScaling_floats _ c hv⟩⟩
    · obtain ⟨g, hg⟩ := transUnary_row row hr
      have h := transUnary_floats (g s) c hu
      rw [← hg] at h
      exact ⟨_, h⟩
    · obtain ⟨g, hg⟩ := transBinary_row row hr
      have h := transBinary_floats (g s) c hu hv
      rw [← hg] at h
      exact ⟨_, h⟩
    · simp only [List.forall_mem_cons, List.not_mem_nil, false_implies, implies_true, and_true]
      exact ⟨fpCopySign_strays false c hu hv, fpCopySign_strays true c hu hv⟩
    · simp only [List.forall_mem_cons, List.not_mem_nil, false_implies, implies_true, and_true]
      exact ⟨fun hu => fpMove_strays c hu, fun hu => fpMove_strays c hu, fun hu => fpMove_strays c hu⟩
    · exact fpFromInt_floats _ c
    · have h := fpFromInt_floats (s := s) (s.readReg (q + 1#5) ++ s.readReg q).toInt c
      rw [← srcWords_pair hq] at h
      exact h
    · have h := fpFromInt_floats (s := s) w.toNat c
      rw [← srcWords_literal w] at h
      exact h
    · obtain ⟨m, -, run⟩ := fpToInt_row conv hc
      obtain ⟨rc, run⟩ := run s
      have h := fpToInt_lit rc m n hu
      rw [← run] at h
      exact h

end Sys2Proof.Machine
end

section
/-! SUPPORT. Floating-point numbers as real numbers: order, comparison, rounding to an integer (R429, R467 to R478). -/

namespace Sys2Proof.Machine

variable {s : State} {f : FpFormat}

/-! ### Values -/

/-- The sign of a number as a factor. -/
noncomputable def signOf (neg : Bool) : ℝ := if neg then -1 else 1

theorem FpNum.value_fin (neg : Bool) (m : Nat) (e : Int) :
    (FpNum.fin neg m e).value = signOf neg * m * (2 : ℝ) ^ e := rfl

@[simp] theorem FpNum.value_zero (neg : Bool) : (FpNum.zero neg).value = 0 := rfl

@[simp] theorem signOf_false : signOf false = 1 := rfl
@[simp] theorem signOf_true : signOf true = -1 := rfl

theorem signOf_sq (neg : Bool) : signOf neg * signOf neg = 1 := by cases neg <;> norm_num

theorem abs_signOf (neg : Bool) : |signOf neg| = 1 := by cases neg <;> norm_num

theorem two_zpow_pos (e : Int) : (0 : ℝ) < (2 : ℝ) ^ e := zpow_pos (by norm_num) e

/-- A number as a multiple of a smaller power of two. -/
theorem value_scaledInt (neg : Bool) (m : Nat) {e q : Int} (h : q ≤ e) :
    (FpNum.fin neg m e).value = scaledInt neg m e q * (2 : ℝ) ^ q := by
  have he : (2 : ℝ) ^ e = (2 : ℝ) ^ (e - q).toNat * (2 : ℝ) ^ q := by
    rw [← zpow_natCast, ← zpow_add₀ (by norm_num), Int.toNat_of_nonneg (by omega), Int.sub_add_cancel]
  rw [FpNum.value_fin, he, scaledInt]
  cases neg <;> push_cast [signOf_false, signOf_true, if_true, if_false] <;> simp <;> ring

theorem FpNum.value_pos {m : Nat} (e : Int) (h : 0 < m) : 0 < (FpNum.fin false m e).value := by
  rw [FpNum.value_fin, signOf_false, one_mul]
  exact mul_pos (by exact_mod_cast h) (two_zpow_pos e)

theorem FpNum.value_neg {m : Nat} (e : Int) (h : 0 < m) : (FpNum.fin true m e).value < 0 := by
  rw [FpNum.value_fin, signOf_true]
  have := mul_pos (show (0 : ℝ) < m by exact_mod_cast h) (two_zpow_pos e)
  linarith

/-! ### Comparison -/

/-- Two multiples of one power of two compare as the integers do. -/
theorem scaled_lt_iff (i j : Int) (q : Int) :
    ((i : ℝ) * (2 : ℝ) ^ q < j * (2 : ℝ) ^ q ↔ i < j) ∧ ((i : ℝ) * (2 : ℝ) ^ q = j * (2 : ℝ) ^ q ↔ i = j) := by
  have h := two_zpow_pos q
  refine ⟨by rw [mul_lt_mul_iff_left₀ h, Int.cast_lt], by rw [mul_left_inj' h.ne', Int.cast_inj]⟩

/-- The order of two finite numbers is that of their values; the two zeros are equal (R467). -/
theorem fpOrder_finite {x y : FpNum} (hx : x.Finite) (hy : y.Finite) :
    fpOrder x y = (decide (x.value < y.value), decide (x.value = y.value)) := by
  have nonzero : ∀ (b : Bool) {m : Nat} (e : Int), 0 < m →
      decide ((FpNum.fin b m e).value < 0) = b ∧ decide (0 < (FpNum.fin b m e).value) = !b ∧
        decide ((FpNum.fin b m e).value = 0) = false ∧ decide (0 = (FpNum.fin b m e).value) = false := by
    intro b m e hm
    cases b with
    | false =>
      have := FpNum.value_pos e hm
      simp [this, this.le, this.ne', this.ne]
    | true =>
      have := FpNum.value_neg e hm
      simp [this, this.le, this.ne', this.ne]
  cases x with
  | inf n => exact hx.elim
  | nan n v => exact hx.elim
  | zero n =>
    cases y with
    | inf n => exact hy.elim
    | nan n v => exact hy.elim
    | zero p => simp [fpOrder]
    | fin b m e =>
      obtain ⟨-, h2, -, h4⟩ := nonzero b e hy
      rw [FpNum.value_zero, h2, h4]
      rfl
  | fin a m e =>
    cases y with
    | inf n => exact hy.elim
    | nan n v => exact hy.elim
    | zero p =>
      obtain ⟨h1, -, h3, -⟩ := nonzero a e hx
      rw [FpNum.value_zero, h1, h3]
      rfl
    | fin b n g =>
      obtain ⟨hlt, heq⟩ := scaled_lt_iff (scaledInt a m e (min e g)) (scaledInt b n g (min e g)) (min e g)
      rw [value_scaledInt a m (min_le_left e g), value_scaledInt b n (min_le_right e g), fpOrder]
      simp only [hlt, heq]

theorem fpOrder_inf_left (n : Bool) {y : FpNum} (hy : y.Finite) : fpOrder (.inf n) y = (n, false) := by
  cases y with
  | inf n => exact hy.elim
  | nan n v => exact hy.elim
  | zero p => rfl
  | fin b m e => rfl

theorem fpOrder_inf_right (n : Bool) {x : FpNum} (hx : x.Finite) : fpOrder x (.inf n) = (!n, false) := by
  cases x with
  | inf n => exact hx.elim
  | nan n v => exact hx.elim
  | zero p => rfl
  | fin b m e => rfl

/-! ### NaNs -/

/-- A number is a NaN. -/
def FpNum.IsNaN (x : FpNum) : Prop := ∃ n v, x = .nan n v

theorem nanClass_isNaN (neg : Bool) (sig : BitVec 64) (x : FpNum) :
    ({ neg := neg, cls := nanClass sig, num := x } : FpOperand).isNaN = true := by
  unfold nanClass FpOperand.isNaN
  split <;> rfl

theorem decodeImplicit_isNaN (fb eb : Nat) (neg : Bool) (exp frac : Nat) :
    (decodeImplicit fb eb neg exp frac).isNaN = true ↔ (decodeImplicit fb eb neg exp frac).num.IsNaN := by
  unfold decodeImplicit
  extract_lets bias
  split
  · split
    · simp [FpOperand.isNaN, FpNum.IsNaN]
    · exact ⟨fun _ => ⟨_, _, rfl⟩, fun _ => nanClass_isNaN _ _ _⟩
  · split
    · split <;> simp [FpOperand.isNaN, FpNum.IsNaN]
    · simp [FpOperand.isNaN, FpNum.IsNaN]

theorem decodeExtended_isNaN (x : Ext) : (decodeExtended x).isNaN = true ↔ (decodeExtended x).num.IsNaN := by
  unfold decodeExtended
  extract_lets neg exp sig reserved
  have none' : reserved.isNaN = true ↔ reserved.num.IsNaN := by simp [reserved, FpOperand.isNaN, FpNum.IsNaN]
  split
  · split
    · exact none'
    · split
      · simp [FpOperand.isNaN, FpNum.IsNaN]
      · exact ⟨fun _ => ⟨_, _, rfl⟩, fun _ => nanClass_isNaN _ _ _⟩
  · split
    · split
      · simp [FpOperand.isNaN, FpNum.IsNaN]
      · split
        · exact none'
        · simp [FpOperand.isNaN, FpNum.IsNaN]
    · split
      · simp [FpOperand.isNaN, FpNum.IsNaN]
      · exact none'

/-- The class of an operand says NaN exactly where its number is one (R426). -/
theorem sourceOperand_isNaN (s : State) (f : FpFormat) (x : FSrc) :
    (sourceOperand s f x).isNaN = true ↔ (sourceOperand s f x).num.IsNaN := by
  cases x with
  | reg r =>
    cases f with
    | real => exact decodeImplicit_isNaN ..
    | long => exact decodeImplicit_isNaN ..
    | extended => exact decodeExtended_isNaN _
  | fp k => exact decodeExtended_isNaN _
  | one => exact decodeExtended_isNaN _
  | zero => simp [sourceOperand, FpOperand.isNaN, FpNum.IsNaN]
  | reserved c => simp [sourceOperand, FpOperand.isNaN, FpNum.IsNaN]

theorem sourceOperand_not_nan {x : FSrc} (h : ¬ (sourceOperand s f x).num.IsNaN) : (sourceOperand s f x).isNaN = false :=
  Bool.eq_false_iff.2 fun e => h ((sourceOperand_isNaN s f x).1 e)

theorem FpNum.Finite.not_nan {x : FpNum} (h : x.Finite) : ¬ x.IsNaN := by
  rintro ⟨n, v, rfl⟩
  exact h

theorem not_nan_inf {x : FpNum} {n : Bool} (h : x = .inf n) : ¬ x.IsNaN := by
  rintro ⟨p, v, e⟩
  rw [h] at e
  cases e

/-! ### Comparisons and classifications -/

theorem withFlags_invalid (a : ArithControls) (b : Bool) : withFlags a { invalid := b } = { a with fif := a.fif || b } := by
  cases a
  simp [withFlags]

theorem masked_invalid {b : Bool} (h : b = true → s.ac.fim = true) : Masked s { invalid := b } := by
  refine ⟨h, fun e => ?_, fun e => ?_, fun e => ?_, fun e => ?_⟩ <;> cases e

/-- What a comparison of ready operands leaves (R467 to R470). -/
theorem fpCompare_outcome {x y : FSrc} (ordered : Bool) (hx : SourceReady s f x) (hy : SourceReady s f y) :
    let a := sourceOperand s f x
    let b := sourceOperand s f y
    let invalid := if ordered then a.isNaN || b.isNaN else a.cls == .signalingNaN || b.cls == .signalingNaN
    let gives := fun c : BitVec 3 => Gives (fpCompare s f ordered x y) (Writes s 0#5 []
      { s.ac with cc := c, fif := s.ac.fif || invalid } 4#32)
    (invalid = true → s.ac.fim = false → fpCompare s f ordered x y = takeFault .fpInvalid s.ip s.ip s) ∧
    ((invalid = true → s.ac.fim = true) →
      ((a.isNaN || b.isNaN) = true → gives 0b000) ∧
      (a.num.Finite → b.num.Finite →
        (a.num.value < b.num.value → gives 0b100) ∧ (a.num.value = b.num.value → gives 0b010) ∧
        (b.num.value < a.num.value → gives 0b001)) ∧
      (a.num = .inf true → b.num.Finite → gives 0b100) ∧ (a.num = .inf false → b.num.Finite → gives 0b001) ∧
      (a.num.Finite → b.num = .inf true → gives 0b001) ∧ (a.num.Finite → b.num = .inf false → gives 0b100) ∧
      (∀ n p, a.num = .inf n → b.num = .inf p →
        gives (if n = p then 0b010 else if n then 0b100 else 0b001))) := by
  intro a b invalid gives
  have run := fpCompare_finishes ordered hx hy
  obtain ⟨done, trap, -⟩ := fpFinish_setCc (s := s) { invalid := invalid }
    (if a.isNaN || b.isNaN then 0b000 else orderCc (fpOrder a.num b.num).1 (fpOrder a.num b.num).2)
  refine ⟨fun h1 h2 => run.trans (trap h1 h2), fun hm => ?_⟩
  have done := done (masked_invalid hm)
  rw [withFlags_invalid] at done
  have gave : ∀ c, (if a.isNaN || b.isNaN then 0b000 else orderCc (fpOrder a.num b.num).1 (fpOrder a.num b.num).2) = c →
      gives c := by
    rintro c rfl
    exact (congrArg (Gives · _) run).mpr done
  have ordered' : ¬ a.num.IsNaN → ¬ b.num.IsNaN → ∀ o c, fpOrder a.num b.num = o → orderCc o.1 o.2 = c → gives c := by
    rintro ha hb o c rfl rfl
    refine gave _ (if_neg ?_)
    rw [show a.isNaN = false from sourceOperand_not_nan ha, show b.isNaN = false from sourceOperand_not_nan hb]
    decide
  refine ⟨fun h => gave _ (if_pos h), fun ha hb => ?_, fun ha hb => ?_, fun ha hb => ?_, fun ha hb => ?_, fun ha hb => ?_,
    fun n p ha hb => ?_⟩
  · have o := fun c => ordered' ha.not_nan hb.not_nan _ c (fpOrder_finite ha hb)
    refine ⟨fun h => o _ ?_, fun h => o _ ?_, fun h => o _ ?_⟩
    · simp only [h, decide_true]
      rfl
    · simp only [h, lt_irrefl, decide_false, decide_true]
      rfl
    · simp only [h.not_gt, h.ne', decide_false]
      rfl
  · exact ordered' (not_nan_inf ha) hb.not_nan _ _ (ha ▸ fpOrder_inf_left true hb) rfl
  · exact ordered' (not_nan_inf ha) hb.not_nan _ _ (ha ▸ fpOrder_inf_left false hb) rfl
  · exact ordered' ha.not_nan (not_nan_inf hb) _ _ (hb ▸ fpOrder_inf_right true ha) rfl
  · exact ordered' ha.not_nan (not_nan_inf hb) _ _ (hb ▸ fpOrder_inf_right false ha) rfl
  · refine ordered' (not_nan_inf ha) (not_nan_inf hb) (n && !p, n == p) _ (by rw [ha, hb]; rfl) ?_
    cases n <;> cases p <;> rfl

/-- A classification names the sign and the class (R471). -/
theorem fpClassify_outcome {x : FSrc} (hx : ∀ c, x ≠ .reserved c) (hs : fsrcStarts f x = true) :
    Gives (fpClassify s f x) (Writes s 0#5 []
      { s.ac with ast := BitVec.ofBool (sourceOperand s f x).neg ++ (sourceOperand s f x).cls.code } 4#32) := by
  have hr : readFSrc s f 1 x = .ok (sourceOperand s f x) := by
    cases x with
    | reg r =>
      simp only [fsrcStarts] at hs
      simp only [readFSrc, aligned, hs, if_true]
      rfl
    | fp k => rfl
    | zero => rfl
    | one => rfl
    | reserved c => exact absurd rfl (hx c)
  rw [fpClassify, hr]
  exact ⟨_, rfl, writes_of_ac 0#5 4#32 _⟩

/-- Settles O59. -/
theorem comparesAndClassifies : Obligations.ComparesAndClassifies := by
  intro s x y
  refine ⟨?_, ?_⟩
  · simp only [List.forall_mem_cons, List.not_mem_nil, false_implies, implies_true, and_true]
    exact ⟨fun hx hy => fpCompare_outcome false hx hy, fun hx hy => fpCompare_outcome false hx hy,
      fun hx hy => fpCompare_outcome true hx hy, fun hx hy => fpCompare_outcome true hx hy⟩
  · have starts : ∀ f : FpFormat, f.words ≠ 3 → (∀ r : Reg, x = .reg r → r.toNat % f.words = 0) →
        fsrcStarts f x = true := by
      intro f hf h
      cases x with
      | reg r =>
        refine startsGroup_iff.2 ?_
        rw [groupSize, if_neg hf]
        exact h r rfl
      | _ => rfl
    simp only [List.forall_mem_cons, List.not_mem_nil, false_implies, implies_true, and_true]
    exact ⟨fun hx h => fpClassify_outcome hx (starts .real (by decide) h),
      fun hx h => fpClassify_outcome hx (starts .long (by decide) h)⟩

end Sys2Proof.Machine
end

section
/-! SUPPORT. Rounding a magnitude to a multiple of a power of two (R429). -/

namespace Sys2Proof.Machine

/-! ### Rounding up or down -/

/-- An integer with a sign. -/
def signedInt (neg : Bool) (n : Nat) : Int := if neg then -(n : Int) else n

theorem cast_signedInt (neg : Bool) (n : Nat) : (signedInt neg n : ℝ) = signOf neg * n := by
  cases neg <;> simp [signedInt]

theorem signedInt_even (neg : Bool) (n : Nat) : signedInt neg n % 2 = 0 ↔ n % 2 = 0 := by
  cases neg <;> simp only [signedInt] <;> simp <;> omega

theorem abs_signed_sub (neg : Bool) (x : ℝ) (n : Nat) : |signOf neg * x - signedInt neg n| = |x - n| := by
  rw [cast_signedInt, ← mul_sub, abs_mul, abs_signOf, one_mul]

/-- Where a magnitude lies between `k` and `k + 1`, told by a remainder and a half. -/
structure Between (x : ℝ) (k rem half : Nat) : Prop where
  lower : (k : ℝ) ≤ x
  upper : x < k + 1
  exact : rem = 0 ↔ x = k
  below : rem < half ↔ x < k + 1 / 2
  tie : rem = half ↔ x = k + 1 / 2

theorem roundsUp_nearest (neg odd : Bool) (rem half : Nat) :
    roundsUp 0#2 neg odd rem half = (decide (half < rem) || (decide (rem = half) && odd)) := rfl
theorem roundsUp_down (neg odd : Bool) (rem half : Nat) : roundsUp 1#2 neg odd rem half = (neg && decide (rem ≠ 0)) := rfl
theorem roundsUp_up (neg odd : Bool) (rem half : Nat) : roundsUp 2#2 neg odd rem half = (!neg && decide (rem ≠ 0)) := rfl
theorem roundsUp_zero (neg odd : Bool) (rem half : Nat) : roundsUp 3#2 neg odd rem half = false := rfl

theorem roundsUp_exact (rc : BitVec 2) (neg odd : Bool) {rem half : Nat} (h : rem = 0) (hh : 0 < half) :
    roundsUp rc neg odd rem half = false := by
  simp [roundsUp, h, hh.ne, Nat.not_lt.2 (Nat.zero_le half)]

namespace Between

variable {x : ℝ} {k rem half : Nat}

theorem floor (h : Between x k rem half) : ⌊x⌋ = k :=
  Int.floor_eq_iff.2 ⟨by exact_mod_cast h.lower, by exact_mod_cast h.upper⟩

theorem ceil (h : Between x k rem half) : ⌈x⌉ = k + (decide (rem ≠ 0)).toNat := by
  by_cases h0 : rem = 0
  · rw [h.exact.1 h0]
    simp [h0]
  · have hx : x ≠ k := fun e => h0 (h.exact.2 e)
    have hlt : (k : ℝ) < x := lt_of_le_of_ne h.lower (Ne.symm hx)
    simp only [h0, ne_eq, not_false_eq_true, decide_true, Bool.toNat_true]
    refine Int.ceil_eq_iff.2 ⟨?_, ?_⟩ <;> push_cast <;> linarith [h.upper]

/-- To nearest, to even between two. -/
theorem nearest (h : Between x k rem half) (neg : Bool) :
    let n := k + (roundsUp 0#2 neg (k % 2 == 1) rem half).toNat
    |x - n| ≤ 1 / 2 ∧ (|x - n| = 1 / 2 → n % 2 = 0) := by
  have h1 := h.lower
  have h2 := h.upper
  intro n
  rw [show n = k + (decide (half < rem) || (decide (rem = half) && (k % 2 == 1))).toNat from rfl]
  rcases Nat.lt_trichotomy rem half with hlt | heq | hgt
  · have hx := h.below.1 hlt
    simp only [Nat.not_lt.2 hlt.le, hlt.ne, decide_false, Bool.false_and, Bool.or_self, Bool.toNat_false, Nat.add_zero]
    rw [abs_of_nonneg (by linarith)]
    exact ⟨by linarith, fun e => by linarith⟩
  · have hx := h.tie.1 heq
    rcases Nat.mod_two_eq_zero_or_one k with hk | hk
    · simp only [heq, hk, lt_irrefl, decide_false, decide_true, Bool.false_or, Bool.true_and, hx]
      norm_num [hk]
      simpa using hk
    · simp only [heq, hk, lt_irrefl, decide_false, decide_true, Bool.false_or, Bool.true_and, hx]
      norm_num
      omega
  · have hx : (k : ℝ) + 1 / 2 < x := by
      refine lt_of_le_of_ne (not_lt.1 fun hb => ?_) fun e => hgt.ne' (h.tie.2 e.symm)
      exact absurd (h.below.2 hb) (Nat.not_lt.2 hgt.le)
    simp only [hgt, decide_true, Bool.true_or, Bool.toNat_true]
    push_cast
    rw [abs_of_neg (by linarith)]
    exact ⟨by linarith, fun e => by linarith⟩

/-- A magnitude with a sign is rounded as the rounding control says (R429). -/
theorem rounds (h : Between x k rem half) (rc : BitVec 2) (neg : Bool) :
    RoundsToInt rc (signOf neg * x) (signedInt neg (k + (roundsUp rc neg (k % 2 == 1) rem half).toNat)) := by
  have hx : 0 ≤ x := le_trans (Nat.cast_nonneg k) h.lower
  refine ⟨?_, ?_, ?_, ?_⟩
  · rintro rfl
    rw [abs_signed_sub, signedInt_even]
    exact h.nearest neg
  · rintro rfl
    cases neg
    · simp [signedInt, roundsUp_down, h.floor]
    · simp only [signedInt, roundsUp_down, signOf_true, neg_one_mul, Int.floor_neg, h.ceil, if_true, Bool.true_and]
      push_cast
      rfl
  · rintro rfl
    cases neg
    · simp only [signedInt, roundsUp_up, signOf_false, one_mul, h.ceil, Bool.not_false, Bool.true_and]
      rfl
    · simp [signedInt, roundsUp_up, h.floor, Int.ceil_neg]
  · rintro rfl
    cases neg
    · simp [signedInt, roundsUp_zero, h.floor, hx]
    · simp only [signedInt, roundsUp_zero, signOf_true, neg_one_mul, Int.floor_neg, Int.ceil_neg, h.floor, if_true,
        Bool.toNat_false, Nat.add_zero]
      split
      next h0 =>
        have hk : (k : ℝ) = 0 := le_antisymm (by linarith [h.lower]) (Nat.cast_nonneg k)
        rw [show x = 0 by linarith]
        simpa using hk
      next => rfl

/-- What is lost is told by the remainder. -/
theorem lost (h : Between x k rem half) (hh : 0 < half) (rc : BitVec 2) (neg : Bool) :
    rem = 0 ↔ x = (k + (roundsUp rc neg (k % 2 == 1) rem half).toNat : Nat) := by
  constructor
  · intro h0
    rw [h.exact.1 h0, roundsUp_exact _ _ _ h0 hh]
    simp
  · intro e
    cases hr : roundsUp rc neg (k % 2 == 1) rem half
    · rw [h.exact, e, hr]
      simp
    · rw [hr] at e
      push_cast [Bool.toNat_true] at e
      linarith [h.upper]

end Between

/-! ### Multiples of a power of two -/

theorem roundsToInt_exact (rc : BitVec 2) {x : ℝ} {n : Int} (h : x = n) : RoundsToInt rc x n := by
  subst h
  exact ⟨fun _ => by norm_num, fun _ => by simp, fun _ => by simp, fun _ => by simp⟩

/-- An integer stands for a magnitude: it is that, or it is odd and nearer than the even ones. -/
def StandsFor (m : Nat) (v : ℝ) : Prop := v = m ∨ (m % 2 = 1 ∧ |v - m| < 1)

namespace StandsFor

variable {m : Nat} {v : ℝ}

theorem lt_iff (h : StandsFor m v) {t : Nat} (ht : v = m ∨ t % 2 = 0) : m < t ↔ v < t := by
  by_cases hv : v = m
  · rw [hv, Nat.cast_lt]
  · obtain ⟨hodd, hnear⟩ := h.resolve_left hv
    have heven := ht.resolve_left hv
    obtain ⟨hl, hu⟩ := abs_lt.1 hnear
    constructor
    · intro hlt
      have : ((m + 1 : Nat) : ℝ) ≤ t := by exact_mod_cast hlt
      push_cast at this
      linarith
    · intro hlt
      by_contra hge
      have : ((t + 1 : Nat) : ℝ) ≤ m := by exact_mod_cast (by omega : t + 1 ≤ m)
      push_cast at this
      linarith

theorem eq_iff (h : StandsFor m v) {t : Nat} (ht : v = m ∨ t % 2 = 0) : m = t ↔ v = t := by
  by_cases hv : v = m
  · rw [hv, Nat.cast_inj]
  · obtain ⟨hodd, hnear⟩ := h.resolve_left hv
    have heven := ht.resolve_left hv
    refine iff_of_false (by omega) fun e => ?_
    have hge : ¬ m < t := fun hl => absurd ((h.lt_iff ht).1 hl) (not_lt.2 e.ge)
    have : ((t + 1 : Nat) : ℝ) ≤ m := by exact_mod_cast (by omega : t + 1 ≤ m)
    push_cast at this
    linarith [(abs_lt.1 hnear).1]

theorem pos (h : StandsFor m v) (hm : 0 < m) : 0 < v := by
  rcases h with rfl | ⟨hodd, hnear⟩
  · exact_mod_cast hm
  · have : (1 : ℝ) ≤ m := by exact_mod_cast hm
    linarith [(abs_lt.1 hnear).1]

end StandsFor

theorem zpow_sub_toNat {e q : Int} (h : e ≤ q) : (2 : ℝ) ^ (e - q) = ((2 : ℝ) ^ (q - e).toNat)⁻¹ := by
  rw [← zpow_natCast, ← zpow_neg]
  congr 1
  omega

/-- A magnitude with its last `sh + 1` bits cut off. -/
theorem StandsFor.between {m : Nat} {v : ℝ} (h : StandsFor m v) (sh : Nat) (hd : v = m ∨ 1 ≤ sh) :
    Between (v * ((2 : ℝ) ^ (sh + 1))⁻¹) (m / 2 ^ (sh + 1)) (m % 2 ^ (sh + 1)) (2 ^ sh) := by
  have hpow : (0 : ℝ) < 2 ^ sh := by positivity
  have hdiv := Nat.div_add_mod m (2 ^ (sh + 1))
  have hlt := Nat.mod_lt m (by positivity : 2 ^ (sh + 1) > 0)
  have heven : v = m ∨ 2 ^ sh % 2 = 0 := hd.imp_right fun h1 => by
    obtain ⟨i, rfl⟩ : ∃ i, sh = i + 1 := ⟨sh - 1, by omega⟩
    simp [pow_succ]
  generalize m / 2 ^ (sh + 1) = k at hdiv ⊢
  generalize m % 2 ^ (sh + 1) = rem at hdiv hlt ⊢
  simp only [pow_succ] at hdiv hlt ⊢
  rw [← div_eq_mul_inv]
  have hcast : ((2 ^ sh : Nat) : ℝ) = 2 ^ sh := by push_cast; rfl
  have hmul : ∀ a : Nat, 2 ^ sh * 2 * a % 2 = 0 := fun a => by rw [mul_right_comm, Nat.mul_mod_left]
  have hlow := h.lt_iff (t := 2 ^ sh * 2 * k) (.inr (hmul k))
  have hfit := h.eq_iff (t := 2 ^ sh * 2 * k) (.inr (hmul k))
  have hup := h.lt_iff (t := 2 ^ sh * 2 * (k + 1)) (.inr (hmul _))
  have hmid := h.lt_iff (t := 2 ^ sh * 2 * k + 2 ^ sh) (heven.imp_right fun e => by rw [Nat.add_mod, hmul, e])
  have htie := h.eq_iff (t := 2 ^ sh * 2 * k + 2 ^ sh) (heven.imp_right fun e => by rw [Nat.add_mod, hmul, e])
  push_cast at hlow hfit hup hmid htie
  have hall : (0 : ℝ) < 2 ^ sh * 2 := by positivity
  refine ⟨?_, ?_, ?_, ?_, ?_⟩
  · rw [le_div_iff₀ hall, mul_comm]
    exact not_lt.1 fun hl => by have := hlow.2 hl; omega
  · rw [div_lt_iff₀ hall, mul_comm]
    exact hup.1 (by rw [mul_add, mul_one]; omega)
  · rw [div_eq_iff hall.ne', mul_comm (k : ℝ), ← hfit]
    omega
  · rw [div_lt_iff₀ hall, show ((k : ℝ) + 1 / 2) * (2 ^ sh * 2) = 2 ^ sh * 2 * k + 2 ^ sh by ring, ← hmid]
    omega
  · rw [div_eq_iff hall.ne', show ((k : ℝ) + 1 / 2) * (2 ^ sh * 2) = 2 ^ sh * 2 * k + 2 ^ sh by ring, ← htie]
    omega

/-- A magnitude that is all cut off. -/
theorem StandsFor.between_far {m : Nat} {v : ℝ} (h : StandsFor m v) (hm : 0 < m) {sh : Nat} (hsh : Nat.log2 m + 3 < sh) :
    Between (v * ((2 : ℝ) ^ sh)⁻¹) 0 1 2 := by
  have hpos := h.pos hm
  have hbound : v < 2 ^ (Nat.log2 m + 1) := by
    have hlt := (h.lt_iff (t := 2 ^ (Nat.log2 m + 1)) (.inr (by simp [pow_succ]))).1
      (by rw [Nat.log2_eq_log_two]; exact Nat.lt_pow_succ_log_self (by decide) m)
    push_cast at hlt
    exact hlt
  have hsmall : v * ((2 : ℝ) ^ sh)⁻¹ < 1 / 4 := by
    rw [← div_eq_mul_inv, div_lt_iff₀ (by positivity)]
    refine hbound.trans_le ?_
    obtain ⟨i, rfl⟩ := Nat.exists_eq_add_of_le (show Nat.log2 m + 1 + 2 ≤ sh by omega)
    rw [pow_add _ (Nat.log2 m + 1 + 2) i, pow_add _ (Nat.log2 m + 1) 2]
    have hone : (1 : ℝ) ≤ 2 ^ i := one_le_pow₀ (by norm_num)
    have := le_mul_of_one_le_right (by positivity : (0 : ℝ) ≤ 2 ^ (Nat.log2 m + 1)) hone
    linarith
  have hx : 0 < v * ((2 : ℝ) ^ sh)⁻¹ := by positivity
  refine ⟨?_, ?_, ?_, ?_, ?_⟩ <;> push_cast
  · exact hx.le
  · linarith
  · exact iff_of_false (by decide) hx.ne'
  · exact iff_of_true (by decide) (by linarith)
  · exact iff_of_false (by decide) (by linarith)

section

variable {m : Nat} {v : ℝ} {e q : Int}

theorem quantize_exact (rc : BitVec 2) (neg : Bool) (m : Nat) (h : q ≤ e) :
    quantize rc neg m e q = (m * 2 ^ (e - q).toNat, false) := if_pos h

theorem quantize_between (rc : BitVec 2) (neg : Bool) (hm : 0 < m) (h : StandsFor m v) (hd : v = m ∨ e + 2 ≤ q)
    (he : e < q) :
    ∃ k rem half, 0 < half ∧ Between (v * (2 : ℝ) ^ (e - q)) k rem half ∧
      quantize rc neg m e q = (k + (roundsUp rc neg (k % 2 == 1) rem half).toNat, decide (rem ≠ 0)) := by
  obtain ⟨sh, hsh⟩ : ∃ sh, (q - e).toNat = sh + 1 := ⟨(q - e).toNat - 1, by omega⟩
  rw [zpow_sub_toNat he.le, quantize, if_neg (not_le.2 he)]
  simp only [hsh]
  split
  next hfar => exact ⟨0, 1, 2, by decide, h.between_far hm hfar, by simp⟩
  next => exact ⟨_, _, _, by positivity, h.between sh (hd.imp_right fun _ => by omega), rfl⟩

/-- What `quantize` gives is the number rounded to a multiple of a power of two, and it tells whether that is exact. -/
theorem quantize_rounds (rc : BitVec 2) (neg : Bool) (hm : 0 < m) (h : StandsFor m v) (hd : v = m ∨ e + 2 ≤ q) :
    RoundsToInt rc (signOf neg * (v * (2 : ℝ) ^ (e - q))) (signedInt neg (quantize rc neg m e q).1) ∧
      ((quantize rc neg m e q).2 = false ↔ v * (2 : ℝ) ^ (e - q) = (quantize rc neg m e q).1) := by
  by_cases he : q ≤ e
  · have hv : v = m := hd.resolve_right (by omega)
    have hx : v * (2 : ℝ) ^ (e - q) = (m * 2 ^ (e - q).toNat : Nat) := by
      rw [hv, ← Int.toNat_of_nonneg (show 0 ≤ e - q by omega)]
      push_cast
      rw [zpow_natCast, Int.toNat_natCast]
    rw [quantize_exact rc neg m he]
    exact ⟨roundsToInt_exact rc (by rw [cast_signedInt, hx]), iff_of_true rfl hx⟩
  · obtain ⟨k, rem, half, hhalf, hb, hq⟩ := quantize_between rc neg hm h hd (not_le.1 he)
    rw [hq]
    exact ⟨hb.rounds rc neg, by simpa using hb.lost hhalf rc neg⟩

end

end Sys2Proof.Machine
end

section
/-! PROOF. Conversions between integers and reals (R473 to R478). -/

namespace Sys2Proof.Machine

variable {s : State}

theorem signOf_ne_zero (neg : Bool) : signOf neg ≠ 0 := by cases neg <;> norm_num

/-- What rounding to an integer comes to: the integer, and whether it is the number itself. -/
theorem roundToInt_finite (rc : BitVec 2) {n : FpNum} (h : n.Finite) :
    ∃ i b, roundToInt rc n = some (i, b) ∧ RoundsToInt rc n.value i ∧ (b = false ↔ n.value = i) := by
  cases n with
  | zero neg => exact ⟨0, false, rfl, roundsToInt_exact rc (by simp), by simp⟩
  | fin neg m e =>
    obtain ⟨hr, hl⟩ := quantize_rounds rc neg h (e := e) (q := 0) (.inl rfl) (.inl rfl)
    have hv : signOf neg * ((m : ℝ) * (2 : ℝ) ^ (e - 0)) = (FpNum.fin neg m e).value := by
      rw [FpNum.value_fin, sub_zero, mul_assoc]
    rw [hv] at hr
    refine ⟨signedInt neg (quantize rc neg m e 0).1, (quantize rc neg m e 0).2, rfl, hr, ?_⟩
    rw [hl, ← hv, cast_signedInt]
    exact ⟨fun e => by rw [e], fun e => mul_left_cancel₀ (signOf_ne_zero neg) e⟩
  | inf b => exact h.elim
  | nan b v => exact h.elim

theorem roundToInt_not_finite (rc : BitVec 2) {n : FpNum} (h : (∃ b, n = .inf b) ∨ ∃ b v, n = .nan b v) :
    roundToInt rc n = none := by
  obtain ⟨b, rfl⟩ | ⟨b, v, rfl⟩ := h <;> rfl

theorem withFlags_inexact (a : ArithControls) : withFlags a { inexact := true } = { a with fxf := true } := by
  cases a
  simp [withFlags]

theorem masked_none (s : State) : Masked s {} := by
  refine ⟨fun e => ?_, fun e => ?_, fun e => ?_, fun e => ?_, fun e => ?_⟩ <;> cases e

theorem masked_inexact (h : s.ac.fxm = true) : Masked s { inexact := true } := by
  refine ⟨fun e => ?_, fun e => ?_, fun e => ?_, fun e => ?_, fun _ => h⟩ <;> cases e

theorem Traps.of_inexact {x : Res} (h : Traps s { inexact := true } x) (hm : s.ac.fxm = false) :
    x = takeFault .fpInexact s.ip s.ip s := by
  obtain ⟨-, -, -, -, hx⟩ := h
  have e : ({ withFlags s.ac { inexact := true } with fxf := s.ac.fxf } : ArithControls) = s.ac := by
    rw [withFlags_inexact]
  have := hx (fun h => by cases h) (fun h => by cases h) (fun h => by cases h) (fun h => by cases h) rfl hm
  rwa [e] at this

/-- What a conversion of a ready real to an integer of `n` words comes to (R475, D16). -/
theorem fpToInt_outcome {y : FSrc} {r : Reg} {n : Nat} (rc : BitVec 2) (hn : n = 1 ∨ n = 2) (hy : SourceReady s .real y)
    (hr : r.toNat % n = 0) :
    let a := (sourceOperand s .real y).num
    let x := fpToInt s rc n y (.reg r)
    let limit : Int := 2 ^ (32 * n - 1)
    let overflows := fun ws : List Word =>
      (s.ac.om = true → Gives x (Writes s r ws { s.ac with oflow := true } 4#32)) ∧
      (s.ac.om = false → ∃ t, Writes s r ws s.ac 4#32 t ∧ x = takeFault .integerOverflow s.ip t.ip t)
    (a.Finite → ∃ i : Int, RoundsToInt rc a.value i ∧
      (-limit ≤ i → i < limit →
        (a.value = i → Gives x (Writes s r (wordsOfInt n i) s.ac 4#32)) ∧
        (a.value ≠ i → s.ac.fxm = true → Gives x (Writes s r (wordsOfInt n i) { s.ac with fxf := true } 4#32)) ∧
        (a.value ≠ i → s.ac.fxm = false → x = takeFault .fpInexact s.ip s.ip s)) ∧
      (¬ (-limit ≤ i ∧ i < limit) → overflows (wordsOfInt n i))) ∧
    ((∃ b, a = .inf b) ∨ (∃ b v, a = .nan b v) → ∃ ws : List Word, ws.length = n ∧ overflows ws) := by
  have hs : dstStarts n (.reg r) = true := by
    obtain rfl | rfl := hn
    · exact startsGroup_one r
    · exact startsGroup_iff.2 hr
  have hx : fpToInt s rc n y (.reg r) = s.deliverInt (.reg r)
      (intResult s.serial n (roundToInt rc (sourceOperand s .real y).num)).1
      (intResult s.serial n (roundToInt rc (sourceOperand s .real y).num)).2
      ((roundToInt rc (sourceOperand s .real y).num).elim false Prod.snd) := by
    rw [fpToInt_eq s rc n y _ hs, fpSource_ready 1 hy, State.commitThen_ok]
  have delivers : ∀ ws : List Word, ws.length = n → _ := fun ws hl inexact =>
    deliverInt_reg (s := s) (r := r) (ws := ws) (by omega) (by rw [hl]; exact hs) inexact
  intro a x limit overflows
  refine ⟨fun hf => ?_, fun hnot => ?_⟩
  · obtain ⟨i, b, hi, hround, hb⟩ := roundToInt_finite rc hf
    rw [hi] at hx
    obtain ⟨⟨hgives, htraps⟩, hover⟩ := delivers (wordsOfInt n i) (length_wordsOfInt n i) b
    refine ⟨i, hround, fun hlow hhigh => ?_, fun hnot => ?_⟩
    · have hfit : fitsInt (32 * n - 1) i = true := (fitsInt_iff _ _).2 ⟨hlow, hhigh⟩
      simp only [intResult, hfit, Bool.not_true, Option.elim_some] at hx
      rw [show x = _ from hx]
      refine ⟨fun he => ?_, fun hne hm => ?_, fun hne hm => ?_⟩
      · rw [hb.2 he] at hgives ⊢
        have := hgives (masked_none s)
        rwa [withFlags_none] at this
      · rw [Bool.eq_true_of_not_eq_false (mt hb.1 hne)] at hgives ⊢
        have := hgives (masked_inexact hm)
        rwa [withFlags_inexact] at this
      · rw [Bool.eq_true_of_not_eq_false (mt hb.1 hne)] at htraps ⊢
        exact htraps.of_inexact hm
    · have hfit : fitsInt (32 * n - 1) i = false := Bool.eq_false_iff.2 (mt (fitsInt_iff _ _).1 hnot)
      simp only [intResult, hfit, Bool.not_false, Option.elim_some] at hx
      simp only [overflows, show x = _ from hx]
      exact hover
  · rw [roundToInt_not_finite rc hnot] at hx
    refine ⟨_, length_intResult s.serial n none, ?_⟩
    simp only [overflows, show x = _ from hx]
    exact (delivers _ (length_intResult s.serial n none) _).2

/-- Settles O60: an integer is rounded as any result is; a real is rounded to a multiple of 1, and what does not fit
overflows. -/
theorem conversions : Obligations.Conversions := by
  unfold Obligations.Conversions
  intro s x y r d
  refine ⟨fun hm hd => ⟨?_, fun q hq => ?_, fun v => ?_⟩, fun hy => ?_⟩
  · exact (fpFromInt_delivers _ hd).gives hm
  · have h := (fpFromInt_delivers (s := s) (s.readReg (q + 1#5) ++ s.readReg q).toInt hd).gives hm
    rwa [← srcWords_pair hq] at h
  · have h := (fpFromInt_delivers (s := s) (v.toNat : Int) hd).gives hm
    rwa [← srcWords_literal (s := s) v] at h
  · simp only [List.forall_mem_cons, List.not_mem_nil, false_implies, implies_true, and_true]
    exact ⟨fun hr => fpToInt_outcome s.ac.rc (.inl rfl) hy hr, fun hr => fpToInt_outcome 3#2 (.inl rfl) hy hr,
      fun hr => fpToInt_outcome s.ac.rc (.inr rfl) hy hr, fun hr => fpToInt_outcome 3#2 (.inr rfl) hy hr⟩

end Sys2Proof.Machine
end

section
/-! PROOF. Transcendentals: the flags they set, and their exact cases (R453 to R466). -/

namespace Sys2Proof.Machine

variable {s : State} {f : FpFormat}

/-! ### Flags -/

/-- The flags of AC as bits 16 to 20. -/
def FpExceptions.flags (x : FpExceptions) : BitVec 5 :=
  BitVec.ofBool x.inexact ++ BitVec.ofBool x.zeroDivide ++ BitVec.ofBool x.invalid ++
    BitVec.ofBool (x.tiny && x.inexact) ++ BitVec.ofBool x.overflow

theorem withFlags_onlyFlags (a : ArithControls) (x : FpExceptions) : OnlyFlagsSet a (withFlags a x) := by
  refine ⟨x.flags, BitVec.eq_of_getLsbD_eq fun i hi => ?_⟩
  simp only [ArithControls.toWord, withFlags, FpExceptions.flags, BitVec.getLsbD_or, BitVec.getLsbD_shiftLeft,
    BitVec.getLsbD_setWidth, BitVec.getLsbD_append]
  interval_cases i <;> simp

/-! ### Numbers that are powers of two -/

theorem log2_bounds {m : Nat} (h : 0 < m) : (2 : ℝ) ^ Nat.log2 m ≤ m ∧ (m : ℝ) < 2 ^ (Nat.log2 m + 1) := by
  rw [Nat.log2_eq_log_two]
  exact ⟨by exact_mod_cast Nat.pow_log_le_self 2 h.ne', by exact_mod_cast Nat.lt_pow_succ_log_self (by decide) m⟩

theorem abs_value_fin (neg : Bool) (m : Nat) (e : Int) : |(FpNum.fin neg m e).value| = m * (2 : ℝ) ^ e := by
  rw [FpNum.value_fin, abs_mul, abs_mul, abs_signOf, one_mul, Nat.abs_cast, abs_of_pos (two_zpow_pos e)]

theorem verySmall_of_lt (neg : Bool) {m : Nat} {e : Int} (hm : 0 < m)
    (h : |(FpNum.fin neg m e).value| < (2 : ℝ) ^ (-32 : Int)) : verySmall m e = true := by
  rw [abs_value_fin] at h
  refine decide_eq_true ((zpow_lt_zpow_iff_right₀ (one_lt_two (α := ℝ))).1 (lt_of_le_of_lt ?_ h))
  rw [zpow_add₀ two_ne_zero, mul_comm, zpow_natCast]
  exact mul_le_mul_of_nonneg_right (log2_bounds hm).1 (two_zpow_pos e).le

/-- A number that is a power of two has no other bits, and its exponent is that of its first bit. -/
theorem powerOfTwo_of_value {a : FpNum} {n : Int} (hv : a.value = (2 : ℝ) ^ n) :
    ∃ m e, a = .fin false m e ∧ isPowerOfTwo m = true ∧ e + (Nat.log2 m : Int) = n := by
  have hpos : 0 < a.value := hv ▸ two_zpow_pos n
  cases a with
  | zero b => exact absurd hpos (lt_irrefl _)
  | inf b => exact absurd hpos (lt_irrefl _)
  | nan b v => exact absurd hpos (lt_irrefl _)
  | fin neg m e =>
    have hm : 0 < m := by
      rcases Nat.eq_zero_or_pos m with rfl | hm
      · simp [FpNum.value_fin] at hpos
      · exact hm
    cases neg with
    | true => exact absurd hpos (FpNum.value_neg e hm).not_gt
    | false =>
      rw [FpNum.value_fin, signOf_false, one_mul] at hv
      have hmv : (m : ℝ) = (2 : ℝ) ^ (n - e) := by
        rw [zpow_sub₀ two_ne_zero, eq_div_iff (two_zpow_pos e).ne', hv]
      obtain ⟨hlow, hhigh⟩ := log2_bounds hm
      rw [hmv, ← zpow_natCast, zpow_le_zpow_iff_right₀ one_lt_two] at hlow
      rw [hmv, ← zpow_natCast, zpow_lt_zpow_iff_right₀ one_lt_two] at hhigh
      have hlog : n - e = (Nat.log2 m : Int) := by omega
      refine ⟨m, e, rfl, ?_, by omega⟩
      rw [hlog, zpow_natCast] at hmv
      exact beq_iff_eq.2 (by exact_mod_cast hmv)

theorem ofInt_finite (i : Int) : (FpNum.ofInt i).Finite ∧ (FpNum.ofInt i).value = i := by
  unfold FpNum.ofInt
  split
  next h => exact ⟨trivial, by simp [h]⟩
  next h =>
    refine ⟨Int.natAbs_pos.2 h, ?_⟩
    rw [FpNum.value_fin, zpow_zero, mul_one, signOf, Nat.cast_natAbs]
    by_cases hi : i < 0
    · simp [hi, abs_of_neg hi]
    · simp [hi, abs_of_nonneg (not_lt.1 hi)]

/-- The product of finite numbers is exact. -/
theorem fpMul_finite (k : Nat) (rc : BitVec 2) {x y : FpNum} (hx : x.Finite) (hy : y.Finite) :
    ∃ c : FpNum, fpMul k rc x y = { num := c } ∧ c.Finite ∧ c.value = x.value * y.value := by
  cases x with
  | inf b => exact hx.elim
  | nan b v => exact hx.elim
  | zero a =>
    cases y with
    | inf b => exact hy.elim
    | nan b v => exact hy.elim
    | zero b => exact ⟨_, rfl, trivial, by simp⟩
    | fin b n g => exact ⟨_, rfl, trivial, by simp⟩
  | fin a m e =>
    cases y with
    | inf b => exact hy.elim
    | nan b v => exact hy.elim
    | zero b => exact ⟨_, rfl, trivial, by simp⟩
    | fin b n g =>
      refine ⟨_, rfl, Nat.mul_pos hx hy, ?_⟩
      simp only [FpNum.value_fin, FpNum.sign, zpow_add₀ (two_ne_zero (α := ℝ))]
      cases a <;> cases b <;> simp <;> ring

/-- 1.0 in every format. -/
theorem roundNum_one (f : FpFormat) (rc : BitVec 2) :
    roundNum f rc (.ofInt 1) = { num := .fin false (2 ^ (f.precision - 1)) (1 - f.precision), exc := {} } := by
  cases f <;> rfl

/-! ### Delivery -/

section

variable {x y : FSrc} {d : FDst}

theorem transUnary_of_operand (g : FpTarget → FpNum → FpResult) (hx : SourceReady s f x) (hd : TargetReady f d)
    (hn : ¬ (sourceOperand s f x).num.IsNaN) {r : FpResult} (hr : g (targetOf d) (sourceOperand s f x).num = r) :
    DeliversRounded s f d r (transUnary s f g x d) := by
  have h := transUnary_delivers g hx hd
  rwa [oneSourceResult, sourceOperand_not_nan hn, if_neg (by decide), hr] at h

theorem transBinary_of_operands (g : FpTarget → FpNum → FpNum → FpResult) (hx : SourceReady s f x)
    (hy : SourceReady s f y) (hd : TargetReady f d) (hn : ¬ (sourceOperand s f x).num.IsNaN)
    (hp : ¬ (sourceOperand s f y).num.IsNaN) {r : FpResult}
    (hr : g (targetOf d) (sourceOperand s f x).num (sourceOperand s f y).num = r) :
    DeliversRounded s f d r (transBinary s f g x y d) := by
  have h := transBinary_delivers g hx hy hd
  rwa [twoSourceResult, sourceOperand_not_nan hn, sourceOperand_not_nan hp, Bool.or_false, if_neg (by decide), hr] at h

theorem DeliversRounded.invalid {k : Nat} {z : Res} (h : DeliversRounded s f d (invalidResult k) z) :
    DeliversInvalid s f d z := by
  obtain ⟨hexc, n, sig, hnum, h63, h62⟩ := invalidResult_quiet k
  refine ⟨n, sig, h63, h62, ?_⟩
  rw [DeliversRounded, deliveredBits, deliveredExceptions, hexc, hnum] at h
  exact h

theorem transLog_zero (t : FpTarget) (n p : Bool) {b : FpNum} (hb : (∃ m e, b = .fin p m e) ∨ b = .inf p) :
    transLog s f t (.zero n) b = { num := .inf !p, exc := { zeroDivide := true } } := by
  obtain ⟨m, e, rfl⟩ | rfl := hb <;> rfl

theorem transLog_negative (t : FpTarget) {a : FpNum} (b : FpNum) (ha : (∃ m e, a = .fin true m e) ∨ a = .inf true) :
    transLog s f t a b = invalidResult s.serial := by
  obtain ⟨m, e, rfl⟩ | rfl := ha <;> cases b <;> rfl

/-- The logarithm of a power of two (R453). -/
theorem transLog_power (t : FpTarget) {a b : FpNum} {n : Int} (hv : a.value = (2 : ℝ) ^ n) (hb : b.Finite) :
    ∃ c : FpNum, transLog s f t a b = { num := c } ∧ c.Finite ∧ c.value = n * b.value := by
  obtain ⟨m, e, rfl, hp, he⟩ := powerOfTwo_of_value hv
  obtain ⟨c, hc, hf, hcv⟩ := fpMul_finite s.serial s.ac.rc (ofInt_finite n).1 hb
  refine ⟨c, ?_, hf, by rw [hcv, (ofInt_finite n).2]⟩
  rw [← hc, ← he]
  cases b with
  | inf b => exact hb.elim
  | nan b v => exact hb.elim
  | zero b => exact if_pos hp
  | fin b m e => exact if_pos hp

theorem transSin_small (t : FpTarget) {a : FpNum} (ha : a.Finite) (hz : a.value ≠ 0)
    (h : |a.value| < (2 : ℝ) ^ (-32 : Int)) :
    ∃ inexact, transSin s f t a = { num := a, exc := { inexact := inexact } } := by
  cases a with
  | zero n => exact absurd rfl hz
  | inf n => exact ha.elim
  | nan n v => exact ha.elim
  | fin n m e => exact ⟨_, if_pos (verySmall_of_lt n ha h)⟩

/-- What the transcendentals of either format run. -/
theorem transcendental_runs (s : State) (hf : f ∈ [FpFormat.real, .long]) (x y : FSrc) (d : FDst) :
    exec (if f = .real then .sinr x d else .sinrl x d) s = transUnary s f (transSin s f) x d ∧
    exec (if f = .real then .cosr x d else .cosrl x d) s = transUnary s f (transCos s f) x d ∧
    exec (if f = .real then .tanr x d else .tanrl x d) s = transUnary s f (transTan s f) x d ∧
    exec (if f = .real then .expr x d else .exprl x d) s = transUnary s f (transExp s f) x d ∧
    exec (if f = .real then .logr x y d else .logrl x y d) s = transBinary s f (transLog s f) x y d ∧
    exec (if f = .real then .logepr x y d else .logeprl x y d) s = transBinary s f (transLogEpsilon s f) x y d := by
  simp only [List.mem_cons, List.not_mem_nil, or_false] at hf
  obtain rfl | rfl := hf <;> exact ⟨rfl, rfl, rfl, rfl, rfl, rfl⟩

end

/-- Settles O53: what a transcendental comes to is delivered as any result, and the exact cases are cases of its
definition. -/
theorem transcendentalsComplete : Obligations.TranscendentalsComplete := by
  unfold Obligations.TranscendentalsComplete
  intro s x y d
  refine ⟨fun hm => ⟨fun row hr hx hd => ?_, fun row hr hx hy hd => ?_⟩, fun f hf hx hd => ?_⟩
  · obtain ⟨g, hg⟩ := transUnary_row row hr
    rw [hg]
    exact ⟨_, _, withFlags_onlyFlags _ _, (transUnary_delivers (g s) hx hd).gives hm⟩
  · obtain ⟨g, hg⟩ := transBinary_row row hr
    rw [hg]
    exact ⟨_, _, withFlags_onlyFlags _ _, (transBinary_delivers (g s) hx hy hd).gives hm⟩
  · obtain ⟨hsin, hcos, htan, hexp, hlog, hlogep⟩ := transcendental_runs s hf x y d
    intro a b run gives log sin
    simp only [log, sin, run, hsin, hcos, htan, hexp, hlog, hlogep, gives]
    have unary : ∀ g : FpTarget → FpNum → FpResult, ¬ a.IsNaN → ∀ r, g (targetOf d) a = r → _ := fun g hn r hr =>
      transUnary_of_operand g hx hd hn hr
    refine ⟨fun n ha => ?_, fun n ha => ?_, fun ha => ?_, fun ha hz hlt => ?_, fun hy => ?_⟩
    · have hn : ¬ a.IsNaN := not_nan_inf ha
      exact ⟨(unary _ hn (invalidResult s.serial) (congrArg (transSin s f (targetOf d)) ha)).invalid,
        (unary _ hn (invalidResult s.serial) (congrArg (transCos s f (targetOf d)) ha)).invalid,
        (unary _ hn (invalidResult s.serial) (congrArg (transTan s f (targetOf d)) ha)).invalid⟩
    · have hn : ¬ a.IsNaN := FpNum.Finite.not_nan (ha ▸ trivial)
      refine ⟨unary _ hn { num := .zero n } (congrArg _ ha), ?_⟩
      have h := unary _ hn { num := .ofInt 1 } (congrArg (transCos s f (targetOf d)) ha)
      rw [DeliversRounded, deliveredBits, deliveredExceptions, roundNum_one] at h
      exact h
    · have hn : ¬ a.IsNaN := FpNum.Finite.not_nan (ha ▸ trivial)
      exact ⟨unary _ hn { num := .zero false } (congrArg (transTan s f (targetOf d)) ha),
        unary _ hn { num := .zero false } (congrArg (transExp s f (targetOf d)) ha)⟩
    · obtain ⟨i, hi⟩ := transSin_small (s := s) (f := f) (targetOf d) ha hz hlt
      exact ⟨i, unary _ ha.not_nan _ hi⟩
    · have binary : ∀ g : FpTarget → FpNum → FpNum → FpResult, ¬ a.IsNaN → ¬ b.IsNaN → ∀ r, g (targetOf d) a b = r → _ :=
        fun g hn hp r hr => transBinary_of_operands g hx hy hd hn hp hr
      refine ⟨fun ha hb => ?_, fun n p ha hb => ?_, fun n ha hv hb => ?_, fun m e ha hb => ?_⟩
      · have hp : ¬ b.IsNaN := fun ⟨p, v, e⟩ => hb p v e
        have hn : ¬ a.IsNaN := by
          obtain ⟨m, e, ha⟩ | ha := ha <;> rw [ha] <;> exact fun ⟨_, _, e⟩ => by cases e
        exact (binary _ hn hp _ (transLog_negative _ b ha)).invalid
      · have hn : ¬ a.IsNaN := FpNum.Finite.not_nan (ha ▸ trivial)
        have hp : ¬ b.IsNaN := by
          obtain ⟨m, e, hb⟩ | hb := hb <;> rw [hb] <;> exact fun ⟨_, _, e⟩ => by cases e
        exact binary (transLog s f) hn hp { num := .inf !p, exc := { zeroDivide := true } }
          (by rw [ha]; exact transLog_zero _ n p hb)
      · obtain ⟨c, hc, hf, hcv⟩ := transLog_power (s := s) (f := f) (targetOf d) hv hb
        exact ⟨c, hf, hcv, binary _ ha.not_nan hb.not_nan _ hc⟩
      · have hn : ¬ a.IsNaN := FpNum.Finite.not_nan (ha ▸ trivial)
        have hp : ¬ b.IsNaN := by
          rw [hb]
          exact fun ⟨_, _, e⟩ => by cases e
        exact binary (transLogEpsilon s f) hn hp { num := .zero false } (by rw [ha, hb]; rfl)

end Sys2Proof.Machine
end

section
/-! PROOF. The layout of the floating-point formats (R426). -/

namespace Sys2Proof.Machine

/-! ### Fields -/

section

variable {m n : Nat} (neg : Bool) (exp : BitVec m) (frac : BitVec n)

theorem fields_sign : (BitVec.ofBool neg ++ exp ++ frac).getLsbD (n + m) = neg := by
  rw [BitVec.getLsbD_append, if_neg (by omega), Nat.add_sub_cancel_left, BitVec.getLsbD_append, if_neg (by omega),
    Nat.sub_self]
  simp

theorem fields_exp : (BitVec.ofBool neg ++ exp ++ frac).extractLsb' n m = exp := by
  refine BitVec.eq_of_getLsbD_eq fun i hi => ?_
  rw [BitVec.getLsbD_extractLsb', BitVec.getLsbD_append, BitVec.getLsbD_append, if_neg (by omega), Nat.add_sub_cancel_left,
    if_pos hi]
  simp [hi]

theorem fields_frac : (BitVec.ofBool neg ++ exp ++ frac).extractLsb' 0 n = frac := by
  refine BitVec.eq_of_getLsbD_eq fun i hi => ?_
  rw [BitVec.getLsbD_extractLsb', Nat.zero_add, BitVec.getLsbD_append, if_pos hi]
  simp [hi]

end

theorem decodeReal_fields (neg : Bool) (exp : BitVec 8) (frac : BitVec 23) :
    decodeReal (BitVec.ofBool neg ++ exp ++ frac) = decodeImplicit 23 8 neg exp.toNat frac.toNat := by
  unfold decodeReal
  congr 1
  · exact fields_sign neg exp frac
  · exact congrArg BitVec.toNat (fields_exp neg exp frac)
  · exact congrArg BitVec.toNat (fields_frac neg exp frac)

theorem decodeLong_fields (neg : Bool) (exp : BitVec 11) (frac : BitVec 52) :
    decodeLong (BitVec.ofBool neg ++ exp ++ frac) = decodeImplicit 52 11 neg exp.toNat frac.toNat := by
  unfold decodeLong
  congr 1
  · exact fields_sign neg exp frac
  · exact congrArg BitVec.toNat (fields_exp neg exp frac)
  · exact congrArg BitVec.toNat (fields_frac neg exp frac)

section

variable (j : Bool) (frac : BitVec 63)

theorem significand_toNat : (BitVec.ofBool j ++ frac).toNat = (if j then 2 ^ 63 else 0) + frac.toNat := by
  rw [BitVec.toNat_append, ← Nat.shiftLeft_add_eq_or_of_lt frac.isLt]
  cases j <;> rfl

theorem significand_top : (BitVec.ofBool j ++ frac).getLsbD 63 = j := by
  rw [BitVec.getLsbD_append, if_neg (by omega), Nat.sub_self]
  simp

end

theorem decodeExtended_sign (x : Ext) : (decodeExtended x).neg = x.getLsbD 79 := by
  unfold decodeExtended
  dsimp only
  repeat' split
  all_goals rfl

/-- An extended real read by its fields. -/
theorem decodeExtended_eq (neg : Bool) (exp : BitVec 15) (j : Bool) (frac : BitVec 63) :
    decodeExtended (BitVec.ofBool neg ++ exp ++ (BitVec.ofBool j ++ frac)) =
      let sig := BitVec.ofBool j ++ frac
      let reserved : FpOperand := { neg := neg, cls := .reserved, num := .zero neg }
      if exp.toNat = 0x7FFF then
        if j = false then reserved
        else if sig = 0x8000000000000000#64 then { neg := neg, cls := .infinity, num := .inf neg }
        else { neg := neg, cls := nanClass sig, num := .nan neg sig }
      else if exp.toNat = 0 then
        if sig = 0 then { neg := neg, cls := .zero, num := .zero neg }
        else if j then reserved
        else { neg := neg, cls := .denormal, num := .fin neg sig.toNat (-16445) }
      else if j then { neg := neg, cls := .normal, num := .fin neg sig.toNat (exp.toNat - 16446) }
      else reserved := by
  have hs : (BitVec.ofBool neg ++ exp ++ (BitVec.ofBool j ++ frac) : Ext).getLsbD 79 = neg := fields_sign neg exp _
  have he : (BitVec.ofBool neg ++ exp ++ (BitVec.ofBool j ++ frac) : Ext).extractLsb' 64 15 = exp := fields_exp neg exp _
  have hf : (BitVec.ofBool neg ++ exp ++ (BitVec.ofBool j ++ frac) : Ext).extractLsb' 0 64 = BitVec.ofBool j ++ frac :=
    fields_frac neg exp _
  simp only [decodeExtended, hs, he, hf, significand_top]

/-- An extended real whose j-bit agrees with its exponent is read as if that bit were implicit. -/
theorem decodeExtended_fields (neg : Bool) (exp : BitVec 15) (j : Bool) (frac : BitVec 63)
    (hj : j = decide (exp.toNat ≠ 0)) :
    decodeExtended (BitVec.ofBool neg ++ exp ++ (BitVec.ofBool j ++ frac)) =
      decodeImplicit 63 15 neg exp.toNat frac.toNat := by
  have hsig := significand_toNat j frac
  have hinf : (BitVec.ofBool j ++ frac : BitVec 64) = 0x8000000000000000#64 ↔ (BitVec.ofBool j ++ frac).toNat = 2 ^ 63 :=
    BitVec.toNat_inj.symm
  have hzero : (BitVec.ofBool j ++ frac : BitVec 64) = 0 ↔ (BitVec.ofBool j ++ frac).toNat = 0 := BitVec.toNat_inj.symm
  rw [decodeExtended_eq, decodeImplicit]
  simp only [hinf, hzero, hsig]
  by_cases hmax : exp.toNat = 0x7FFF
  · have hjt : j = true := by simp [hj, hmax]
    have hv : (BitVec.ofBool true ++ frac : BitVec 64) = BitVec.ofNat 64 (2 ^ 63 + frac.toNat) :=
      BitVec.eq_of_toNat_eq (by rw [significand_toNat, BitVec.toNat_ofNat]; simp; omega)
    simp only [hmax, hjt, hv]
    simp
  · by_cases h0 : exp.toNat = 0
    · have hjf : j = false := by simp [hj, h0]
      simp [h0, hjf]
    · have hjt : j = true := by simp [hj, h0]
      simp [hmax, h0, hjt]
      omega

/-- A j-bit that disagrees with the exponent is a reserved encoding. -/
theorem decodeExtended_reserved (neg : Bool) (exp : BitVec 15) (j : Bool) (frac : BitVec 63)
    (hj : j = decide (exp.toNat = 0)) :
    (decodeExtended (BitVec.ofBool neg ++ exp ++ (BitVec.ofBool j ++ frac))).cls = .reserved := by
  rw [decodeExtended_eq]
  by_cases h0 : exp.toNat = 0
  · have hjt : j = true := by simp [hj, h0]
    have hz : (BitVec.ofBool true ++ frac : BitVec 64) ≠ 0 := fun e => by
      have := congrArg BitVec.toNat e
      rw [significand_toNat] at this
      simp at this
    simp only [h0, hjt, if_neg hz]
    rfl
  · have hjf : j = false := by simp [hj, h0]
    simp [h0, hjf]

/-! ### What an encoding denotes -/

section

variable {fb eb : Nat} {neg : Bool} {exp frac : Nat}

theorem nanClass_fraction (hfb : 0 < fb) (h63 : fb ≤ 63) (hfrac : frac < 2 ^ fb) :
    nanClass (BitVec.ofNat 64 (2 ^ 63 + frac * 2 ^ (63 - fb))) =
      if frac < 2 ^ (fb - 1) then .signalingNaN else .quietNaN := by
  obtain ⟨k, rfl⟩ : ∃ k, fb = k + 1 := ⟨fb - 1, by omega⟩
  have hsplit : 2 ^ 62 = 2 ^ k * 2 ^ (63 - (k + 1)) := by rw [← pow_add]; congr 1; omega
  have hpos : 0 < 2 ^ (63 - (k + 1)) := by positivity
  have hlow : frac * 2 ^ (63 - (k + 1)) < 2 ^ 62 ↔ frac < 2 ^ k := by
    rw [hsplit]
    exact Nat.mul_lt_mul_right hpos
  have hhigh : frac * 2 ^ (63 - (k + 1)) < 2 ^ 63 := by
    rw [show 2 ^ 63 = 2 ^ (k + 1) * 2 ^ (63 - (k + 1)) by rw [← pow_add]; congr 1; omega]
    exact (Nat.mul_lt_mul_right hpos).2 hfrac
  have hbit : (BitVec.ofNat 64 (2 ^ 63 + frac * 2 ^ (63 - (k + 1)))).getLsbD 62 = !decide (frac < 2 ^ k) := by
    rw [BitVec.getLsbD_ofNat, Nat.testBit_eq_decide_div_mod_eq, ← decide_not, decide_eq_true (by omega : 62 < 64),
      Bool.true_and, decide_eq_decide, ← hlow]
    omega
  rw [nanClass, hbit, Nat.add_sub_cancel]
  by_cases h : frac < 2 ^ k <;> simp [h]

theorem decodeImplicit_readsAs (hfb : 0 < fb) (h63 : fb ≤ 63) (hfrac : frac < 2 ^ fb) :
    ReadsAs (decodeImplicit fb (eb + 1) neg exp frac) neg exp frac (2 ^ eb - 1) fb := by
  have hpow : 2 ^ (eb + 1) - 1 = 2 * (2 ^ eb - 1) + 1 := by have := Nat.one_le_two_pow (n := eb); omega
  have hbias : ((2 ^ eb - 1 : Nat) : Int) = 2 ^ eb - 1 := by push_cast [Nat.one_le_two_pow]; rfl
  have hfb0 : (2 : ℝ) ^ fb ≠ 0 := by positivity
  rw [ReadsAs, decodeImplicit]
  simp only [Nat.add_sub_cancel, hpow, hbias]
  refine ⟨?_, fun he hf => ?_, fun he hf => ?_, fun he hlt => ?_, fun he hf => ?_, fun he hf => ?_⟩
  · repeat' split
    all_goals rfl
  · simp [he, hf]
  · simp only [he, hf, if_false, if_true, show ¬ 0 = 2 * (2 ^ eb - 1) + 1 by omega]
    refine ⟨trivial, Nat.pos_of_ne_zero hf, ?_⟩
    rw [FpNum.value_fin, zpow_sub₀ two_ne_zero _ (fb : Int), zpow_natCast, signOf]
    field_simp
  · simp only [he.ne', hlt.ne, if_false]
    refine ⟨trivial, Nat.add_pos_left (by positivity) _, ?_⟩
    rw [FpNum.value_fin, zpow_sub₀ two_ne_zero _ (fb : Int), zpow_natCast, signOf]
    push_cast
    field_simp
  · simp [he, hf]
  · simp only [he, hf, if_true, if_false]
    exact ⟨nanClass_fraction hfb h63 hfrac, trivial⟩

end

/-! ### Reading back what is written -/

theorem decodeWords_real (v : BitVec 32) : decodeWords .real (wordsOfExt .real (v.setWidth 80)) = decodeReal v := by
  have h : (v.setWidth 80).extractLsb' 0 32 = v := by
    refine BitVec.eq_of_getLsbD_eq fun i hi => ?_
    simp [hi]
    omega
  exact congrArg decodeReal h

theorem decodeWords_long (v : BitVec 64) : decodeWords .long (wordsOfExt .long (v.setWidth 80)) = decodeLong v := by
  have h : (v.setWidth 80).extractLsb' 32 32 ++ (v.setWidth 80).extractLsb' 0 32 = v := by
    refine BitVec.eq_of_getLsbD_eq fun i hi => ?_
    rw [BitVec.getLsbD_append]
    by_cases h32 : i < 32
    · simp [h32]
      omega
    · simp [h32, show i - 32 < 32 by omega, show 32 + (i - 32) = i by omega]
      omega
  exact congrArg decodeLong h

theorem decodeWords_extended (x : Ext) : decodeWords .extended (wordsOfExt .extended x) = decodeExtended x := by
  have h : extOfWords (wordsOfExt .extended x) = x := by
    refine BitVec.eq_of_getLsbD_eq fun i hi => ?_
    simp only [extOfWords, wordsOfExt, List.getD_cons_zero, List.getD_cons_succ, BitVec.getLsbD_append]
    by_cases h32 : i < 32
    · simp [h32]
    · by_cases h64 : i - 32 < 32
      · simp [h32, h64, show 32 + (i - 32) = i by omega]
      · simp [h32, h64, show i - 32 - 32 < 16 by omega, show i - 32 - 32 < 32 by omega,
          show 64 + (i - 32 - 32) = i by omega]
  exact congrArg decodeExtended h

/-- The exponent bits of a format (R426). -/
def FpFormat.expBits : FpFormat → Nat
  | .real => 8
  | .long => 11
  | .extended => 15

/-- What is written of a finite number is its exponent field and its significand without the integer bit. -/
theorem decode_encodeFinite (f : FpFormat) (neg : Bool) (m : Nat) (e : Int) (exp : Nat) (hm : m < 2 ^ f.precision)
    (hexp : exp < 2 ^ f.expBits) (hnormal : 2 ^ (f.precision - 1) ≤ m ↔ exp ≠ 0)
    (he : exp = if 2 ^ (f.precision - 1) ≤ m then (e + (f.precision - 1 : Nat) + f.maxExp).toNat else 0) :
    decodeWords f (wordsOfExt f (encodeFinite f neg m e)) =
      decodeImplicit (f.precision - 1) f.expBits neg exp (m % 2 ^ (f.precision - 1)) := by
  cases f with
  | real =>
    simp only [encodeFinite, decide_eq_true_eq, ← he]
    rw [decodeWords_real, decodeReal_fields, BitVec.toNat_ofNat, BitVec.toNat_ofNat,
      Nat.mod_eq_of_lt (show exp < 2 ^ 8 from hexp)]
    rfl
  | long =>
    simp only [encodeFinite, decide_eq_true_eq, ← he]
    rw [decodeWords_long, decodeLong_fields, BitVec.toNat_ofNat, BitVec.toNat_ofNat,
      Nat.mod_eq_of_lt (show exp < 2 ^ 11 from hexp)]
    rfl
  | extended =>
    have hexp' : (BitVec.ofNat 15 exp).toNat = exp := Nat.mod_eq_of_lt (show exp < 2 ^ 15 from hexp)
    have hsig : BitVec.ofNat 64 m = BitVec.ofBool (decide (exp ≠ 0)) ++ BitVec.ofNat 63 m := by
      apply BitVec.eq_of_toNat_eq
      simp only [FpFormat.precision] at hnormal hm
      rw [significand_toNat, BitVec.toNat_ofNat, BitVec.toNat_ofNat]
      by_cases h0 : exp = 0
      · simp [h0]
        omega
      · simp [h0]
        omega
    simp only [encodeFinite, decide_eq_true_eq, ← he, hsig]
    rw [decodeWords_extended, decodeExtended_fields _ _ _ _ (by rw [hexp']), hexp', BitVec.toNat_ofNat]
    rfl

theorem FpFormat.maxExp_eq (f : FpFormat) : (f.maxExp : Int) = 2 ^ (f.expBits - 1) - 1 := by cases f <;> rfl

/-- A finite number in its one form reads back (R426). -/
theorem decode_finite (f : FpFormat) (neg : Bool) (m : Nat) (e : Int)
    (h : (2 ^ (f.precision - 1) ≤ m ∧ m < 2 ^ f.precision ∧ f.lastExp ≤ e ∧ e ≤ f.maxExp - f.precision + 1) ∨
      (0 < m ∧ m < 2 ^ (f.precision - 1) ∧ e = f.lastExp)) :
    (decodeWords f (wordsOfExt f (encodeNum f (.fin neg m e)))).num = .fin neg m e := by
  have hp : 1 ≤ f.precision := by cases f <;> decide
  have hpow : 2 ^ f.precision = 2 * 2 ^ (f.precision - 1) := by rw [← pow_succ', Nat.sub_add_cancel hp]
  have hbits : (2 * f.maxExp + 2 : Int) = 2 ^ f.expBits := by cases f <;> rfl
  rw [encodeNum]
  obtain ⟨hlow, hhigh, hmin, hmax⟩ | ⟨hpos, hhigh, rfl⟩ := h
  · rw [FpFormat.lastExp] at hmin
    obtain ⟨exp, hexp⟩ : ∃ exp : Nat, (exp : Int) = e + (f.precision - 1 : Nat) + f.maxExp :=
      ⟨(e + (f.precision - 1 : Nat) + f.maxExp).toNat, Int.toNat_of_nonneg (by omega)⟩
    have hlt : exp + 1 < 2 ^ f.expBits := by zify; omega
    rw [decode_encodeFinite f neg m e exp hhigh (by omega) (iff_of_true hlow (by omega))
      (by rw [if_pos hlow, ← hexp, Int.toNat_natCast]), decodeImplicit, if_neg (by omega), if_neg (by omega)]
    simp only [FpNum.fin.injEq, true_and, ← FpFormat.maxExp_eq]
    have : m % 2 ^ (f.precision - 1) = m - 2 ^ (f.precision - 1) := by
      rw [Nat.mod_eq_sub_mod hlow, Nat.mod_eq_of_lt (by omega)]
    omega
  · rw [decode_encodeFinite f neg m _ 0 (by omega) (by positivity) (iff_of_false (by omega) (by simp))
      (if_neg (by omega)).symm, Nat.mod_eq_of_lt hhigh, decodeImplicit, if_neg (by have := hbits; cases f <;> decide),
      if_pos rfl, if_neg hpos.ne']
    simp only [FpNum.fin.injEq, true_and, ← FpFormat.maxExp_eq, FpFormat.lastExp]
    omega

theorem decode_inf (f : FpFormat) (neg : Bool) :
    (decodeWords f (wordsOfExt f (encodeNum f (.inf neg)))).num = .inf neg := by
  cases f <;> cases neg <;> decide

theorem decode_zero (f : FpFormat) (neg : Bool) :
    (decodeWords f (wordsOfExt f (encodeNum f (.zero neg)))).num = .zero neg := by
  cases f <;> cases neg <;> decide

/-! ### The words of a value -/

theorem long_words (neg : Bool) (exp : BitVec 11) (high : BitVec 20) (low : Word) :
    ((BitVec.ofBool neg ++ exp ++ high : Word) ++ low : BitVec 64) = BitVec.ofBool neg ++ exp ++ (high ++ low) :=
  BitVec.append_assoc

theorem append_low {m n : Nat} (x : BitVec m) (y : BitVec n) : (x ++ y).extractLsb' 0 n = y := by
  refine BitVec.eq_of_getLsbD_eq fun i hi => ?_
  rw [BitVec.getLsbD_extractLsb', Nat.zero_add, BitVec.getLsbD_append, if_pos hi]
  simp [hi]

theorem extended_words (unused : BitVec 16) (neg : Bool) (exp : BitVec 15) (j : Bool) (high : BitVec 31) (low : Word) :
    extOfWords [low, BitVec.ofBool j ++ high, unused ++ (BitVec.ofBool neg ++ exp)] =
      BitVec.ofBool neg ++ exp ++ (BitVec.ofBool j ++ (high ++ low)) := by
  have hlow : (unused ++ (BitVec.ofBool neg ++ exp) : Word).extractLsb' 0 16 = BitVec.ofBool neg ++ exp :=
    append_low unused (BitVec.ofBool neg ++ exp)
  have hsig : ((BitVec.ofBool j ++ high : Word) ++ low : BitVec 64) = BitVec.ofBool j ++ (high ++ low) :=
    BitVec.append_assoc
  have hall : ((BitVec.ofBool neg ++ exp : BitVec 16) ++ (BitVec.ofBool j ++ high : Word) ++ low : Ext) =
      (BitVec.ofBool neg ++ exp : BitVec 16) ++ ((BitVec.ofBool j ++ high : Word) ++ low : BitVec 64) := BitVec.append_assoc
  simp only [extOfWords, List.getD_cons_zero, List.getD_cons_succ]
  rw [hlow, hall, hsig]

/-- Settles O51: each format is read as its fields, and a finite number in its one form has the fields it was read from. -/
theorem formatsRoundTrip : Obligations.FormatsRoundTrip := by
  unfold Obligations.FormatsRoundTrip
  refine ⟨fun f neg m e h => ⟨decode_finite f neg m e h, decode_inf f neg, decode_zero f neg⟩, fun neg exp frac => ?_,
    fun neg exp high low => ?_, fun unused neg exp j high low => ?_⟩
  · have h := decodeImplicit_readsAs (eb := 7) (neg := neg) (exp := exp.toNat) (by decide) (by decide) frac.isLt
    rw [← decodeReal_fields] at h
    exact h
  · have h := decodeImplicit_readsAs (eb := 10) (neg := neg) (exp := exp.toNat) (by decide) (by decide) (high ++ low).isLt
    rw [← decodeLong_fields, ← long_words] at h
    exact h
  · have ha : decodeWords .extended [low, BitVec.ofBool j ++ high, unused ++ (BitVec.ofBool neg ++ exp)] =
        decodeExtended (BitVec.ofBool neg ++ exp ++ (BitVec.ofBool j ++ (high ++ low))) :=
      congrArg decodeExtended (extended_words unused neg exp j high low)
    have hzero : exp = 0#15 ↔ exp.toNat = 0 := BitVec.toNat_inj.symm
    intro a
    simp only [a, ha, ne_eq, hzero]
    refine ⟨?_, fun h0 h1 => ?_, fun h => ?_⟩
    · rw [decodeExtended_sign]
      exact fields_sign neg exp _
    · rw [decodeExtended_fields neg exp j (high ++ low) (by by_cases h : exp.toNat = 0 <;> simp [h, h0, h1])]
      exact decodeImplicit_readsAs (eb := 14) (by decide) (by decide) (high ++ low).isLt
    · exact decodeExtended_reserved neg exp j (high ++ low) (by
        obtain ⟨h, hj⟩ | ⟨h, hj⟩ := h <;> simp [h, hj])

end Sys2Proof.Machine
end

section
/-! SUPPORT. Rounding a magnitude to a format: the nearest numbers it can hold, and overflow (R428, R429). -/

namespace Sys2Proof.Machine

/-! ### Integers next to a number -/

theorem rc_cases (rc : BitVec 2) : rc = 0#2 ∨ rc = 1#2 ∨ rc = 2#2 ∨ rc = 3#2 := by
  revert rc
  decide

namespace RoundsToInt

variable {rc : BitVec 2} {x : ℝ} {n : Int}

theorem nearest (h : RoundsToInt rc x n) (hrc : rc = 0#2) : |x - n| ≤ 1 / 2 ∧ (|x - n| = 1 / 2 → n % 2 = 0) := h.1 hrc
theorem down (h : RoundsToInt rc x n) (hrc : rc = 1#2) : n = ⌊x⌋ := h.2.1 hrc
theorem up (h : RoundsToInt rc x n) (hrc : rc = 2#2) : n = ⌈x⌉ := h.2.2.1 hrc
theorem towardZero (h : RoundsToInt rc x n) (hrc : rc = 3#2) : n = if 0 ≤ x then ⌊x⌋ else ⌈x⌉ := h.2.2.2 hrc

/-- Rounding does not pass an integer. -/
theorem le_int (h : RoundsToInt rc x n) {t : Int} (ht : x ≤ t) : n ≤ t := by
  have hfloor : ⌊x⌋ ≤ t := by exact_mod_cast (Int.floor_le x).trans ht
  have hceil : ⌈x⌉ ≤ t := Int.ceil_le.2 ht
  rcases rc_cases rc with hrc | hrc | hrc | hrc
  · have := (abs_le.1 (h.nearest hrc).1).1
    have : (n : ℝ) < t + 1 := by linarith
    exact Int.lt_add_one_iff.1 (by exact_mod_cast this)
  · exact h.down hrc ▸ hfloor
  · exact h.up hrc ▸ hceil
  · rw [h.towardZero hrc]
    split
    · exact hfloor
    · exact hceil

theorem int_le (h : RoundsToInt rc x n) {t : Int} (ht : (t : ℝ) ≤ x) : t ≤ n := by
  have hfloor : t ≤ ⌊x⌋ := Int.le_floor.2 ht
  have hceil : t ≤ ⌈x⌉ := by exact_mod_cast ht.trans (Int.le_ceil x)
  rcases rc_cases rc with hrc | hrc | hrc | hrc
  · have := (abs_le.1 (h.nearest hrc).1).2
    have : (t : ℝ) < n + 1 := by linarith
    exact Int.lt_add_one_iff.1 (by exact_mod_cast this)
  · exact h.down hrc ▸ hfloor
  · exact h.up hrc ▸ hceil
  · rw [h.towardZero hrc]
    split
    · exact hfloor
    · exact hceil

end RoundsToInt

/-- An integer, or a number nearer to zero than an integer that `x` reaches. -/
def OnGrid (x y : ℝ) : Prop := (∃ z : Int, y = z) ∨ ∃ t : Int, |y| < t ∧ (t : ℝ) ≤ |x|

namespace OnGrid

variable {rc : BitVec 2} {x y : ℝ} {n : Int}

theorem nearest_int (h : RoundsToInt 0#2 x n) (z : Int) :
    |x - n| ≤ |x - z| ∧ (z ≠ n → |x - z| = |x - n| → n % 2 = 0) := by
  obtain ⟨hn, htie⟩ := h.nearest rfl
  have far : z ≠ n → 1 / 2 ≤ |x - z| := fun hz => by
    have h1 : (1 : ℝ) ≤ |(z : ℝ) - n| := by exact_mod_cast Int.one_le_abs (sub_ne_zero.2 hz)
    have h2 := abs_sub_le (z : ℝ) x n
    rw [abs_sub_comm (z : ℝ) x] at h2
    linarith
  refine ⟨?_, fun hz e => htie (le_antisymm hn (e ▸ far hz))⟩
  by_cases hz : z = n
  · rw [hz]
  · exact hn.trans (far hz)

theorem nearest (h : RoundsToInt 0#2 x n) (hy : OnGrid x y) :
    |x - n| ≤ |x - y| ∧ (y ≠ n → |x - y| = |x - n| → n % 2 = 0) := by
  obtain ⟨z, rfl⟩ | ⟨t, hyt, htx⟩ := hy
  · obtain ⟨hle, htie⟩ := nearest_int h z
    exact ⟨hle, fun hne => htie fun e => hne (by rw [e])⟩
  · have hlt : |x - n| < |x - y| := by
      have hy := abs_lt.1 hyt
      rcases le_total 0 x with hx | hx
      · rw [abs_of_nonneg hx] at htx
        have := (nearest_int h t).1
        rw [abs_of_nonneg (by linarith : 0 ≤ x - t)] at this
        rw [abs_of_nonneg (by linarith : 0 ≤ x - y)]
        linarith
      · rw [abs_of_nonpos hx] at htx
        have := (nearest_int h (-t)).1
        push_cast at this
        rw [abs_of_nonpos (by linarith : x - -t ≤ 0)] at this
        rw [abs_of_nonpos (by linarith : x - y ≤ 0)]
        linarith
    exact ⟨hlt.le, fun _ e => absurd e hlt.ne'⟩

theorem down (h : RoundsToInt 1#2 x n) (hy : OnGrid x y) (hle : y ≤ x) : y ≤ n := by
  obtain ⟨z, rfl⟩ | ⟨t, hyt, htx⟩ := hy
  · exact_mod_cast h.int_le hle
  · have hy := abs_lt.1 hyt
    rcases le_total 0 x with hx | hx
    · rw [abs_of_nonneg hx] at htx
      have : (t : ℝ) ≤ n := by exact_mod_cast h.int_le htx
      linarith
    · rw [abs_of_nonpos hx] at htx
      linarith

theorem up (h : RoundsToInt 2#2 x n) (hy : OnGrid x y) (hle : x ≤ y) : n ≤ y := by
  obtain ⟨z, rfl⟩ | ⟨t, hyt, htx⟩ := hy
  · exact_mod_cast h.le_int hle
  · have hy := abs_lt.1 hyt
    rcases le_total 0 x with hx | hx
    · rw [abs_of_nonneg hx] at htx
      linarith
    · rw [abs_of_nonpos hx] at htx
      have : (n : ℝ) ≤ (-t : Int) := by exact_mod_cast h.le_int (t := -t) (by push_cast; linarith)
      push_cast at this
      linarith

/-- Toward zero: the integer has the sign of the number and is not beyond it. -/
theorem towardZero_int (h : RoundsToInt 3#2 x n) : |(n : ℝ)| ≤ |x| ∧ 0 ≤ n * x := by
  have hn := h.towardZero rfl
  by_cases hx : 0 ≤ x
  · rw [if_pos hx] at hn
    have h0 : (0 : ℝ) ≤ n := by exact_mod_cast hn ▸ Int.floor_nonneg.2 hx
    have hle : (n : ℝ) ≤ x := hn ▸ Int.floor_le x
    rw [abs_of_nonneg h0, abs_of_nonneg hx]
    exact ⟨hle, mul_nonneg h0 hx⟩
  · rw [if_neg hx] at hn
    have hx := (not_le.1 hx).le
    have h0 : (n : ℝ) ≤ 0 := by exact_mod_cast hn ▸ Int.ceil_le.2 (by simpa using hx)
    have hle : x ≤ n := hn ▸ Int.le_ceil x
    rw [abs_of_nonpos h0, abs_of_nonpos hx]
    exact ⟨by linarith, mul_nonneg_of_nonpos_of_nonpos h0 hx⟩

theorem towardZero (h : RoundsToInt 3#2 x n) (hy : OnGrid x y) (hle : |y| ≤ |x|) : |y| ≤ |(n : ℝ)| := by
  have key : ∀ t : Int, (t : ℝ) ≤ |x| → (t : ℝ) ≤ |(n : ℝ)| := fun t ht => by
    rcases le_total 0 x with hx | hx
    · rw [abs_of_nonneg hx] at ht
      exact le_trans (by exact_mod_cast h.int_le ht) (le_abs_self _)
    · rw [abs_of_nonpos hx] at ht
      have : (n : ℝ) ≤ (-t : Int) := by exact_mod_cast h.le_int (t := -t) (by push_cast; linarith)
      push_cast at this
      exact le_trans (by linarith) (neg_le_abs _)
  obtain ⟨z, rfl⟩ | ⟨t, hyt, htx⟩ := hy
  · have := key |z| (by push_cast; exact hle)
    rwa [Int.cast_abs] at this
  · exact hyt.le.trans (key t htx)

end OnGrid

end Sys2Proof.Machine
end

section
/-! SUPPORT. A positive number rounded to a format is the one nearest, below, above or toward zero (R429). -/

namespace Sys2Proof.Machine

variable {f : FpFormat} {rc : BitVec 2}

/-! ### From integers to multiples of a power of two -/

theorem roundsTo_of_scaled {q : Int} {n : FpNum} {i : Int} {x : ℝ} (h : RoundsToInt rc x i) (hn : n.value = i * (2 : ℝ) ^ q)
    (hrep : Representable f n.value) (heven : i % 2 = 0 → ∀ neg m e, n = .fin neg m e → m % 2 = 0)
    (hgrid : ∀ y : ℝ, Representable f (y * (2 : ℝ) ^ q) → OnGrid x y) : RoundsTo f rc (x * (2 : ℝ) ^ q) n := by
  have hc := two_zpow_pos q
  have dist : ∀ y : ℝ, |x * (2 : ℝ) ^ q - y * (2 : ℝ) ^ q| = |x - y| * (2 : ℝ) ^ q := fun y => by
    rw [← sub_mul, abs_mul, abs_of_pos hc]
  have size : ∀ y : ℝ, |y * (2 : ℝ) ^ q| = |y| * (2 : ℝ) ^ q := fun y => by rw [abs_mul, abs_of_pos hc]
  have all : ∀ P : ℝ → Prop, (∀ y : ℝ, P (y * (2 : ℝ) ^ q)) → ∀ y, P y := fun P h y => by
    have := h (y / (2 : ℝ) ^ q)
    rwa [div_mul_cancel₀ y hc.ne'] at this
  refine ⟨hrep, ?_, ?_, ?_, ?_⟩
  · rintro rfl
    refine all _ fun y hy => ?_
    obtain ⟨hle, htie⟩ := (hgrid y hy).nearest h
    rw [hn, dist, dist]
    exact ⟨mul_le_mul_of_nonneg_right hle hc.le, fun hne e =>
      heven (htie (fun h => hne (by rw [h])) (mul_right_cancel₀ hc.ne' e))⟩
  · rintro rfl
    rw [hn]
    refine ⟨mul_le_mul_of_nonneg_right (h.down rfl ▸ Int.floor_le x) hc.le, all _ fun y hy hle => ?_⟩
    exact mul_le_mul_of_nonneg_right ((hgrid y hy).down h (le_of_mul_le_mul_right hle hc)) hc.le
  · rintro rfl
    rw [hn]
    refine ⟨mul_le_mul_of_nonneg_right (h.up rfl ▸ Int.le_ceil x) hc.le, all _ fun y hy hle => ?_⟩
    exact mul_le_mul_of_nonneg_right ((hgrid y hy).up h (le_of_mul_le_mul_right hle hc)) hc.le
  · rintro rfl
    obtain ⟨hle, hsign⟩ := OnGrid.towardZero_int h
    rw [hn, size, size]
    refine ⟨mul_le_mul_of_nonneg_right hle hc.le, ?_, all _ fun y hy hle _ => ?_⟩
    · rw [mul_mul_mul_comm]
      exact mul_nonneg hsign (mul_nonneg hc.le hc.le)
    · rw [size] at hle ⊢
      exact mul_le_mul_of_nonneg_right ((hgrid y hy).towardZero h (le_of_mul_le_mul_right hle hc)) hc.le

/-! ### The last place -/

/-- The exponent of the last place of a result. -/
def lastPlace (f : FpFormat) (m : Nat) (e : Int) : Int := max (e + Nat.log2 m - f.precision + 1) f.lastExp

theorem FpFormat.precision_pos (f : FpFormat) : 1 ≤ f.precision := by cases f <;> decide
theorem FpFormat.precision_le (f : FpFormat) : f.precision ≤ 64 := by cases f <;> decide

theorem two_pow_precision (f : FpFormat) : 2 ^ f.precision = 2 * 2 ^ (f.precision - 1) := by
  rw [← pow_succ', Nat.sub_add_cancel f.precision_pos]

/-- The lowest exponent is not above that of the last place of the largest numbers. -/
theorem FpFormat.lastExp_le (f : FpFormat) : f.lastExp ≤ f.maxExp - f.precision + 1 := by cases f <;> decide

/-- A number a format holds is a multiple of the last place of a result, or it has less places. -/
theorem representable_places {y : ℝ} (h : Representable f y) (m : Nat) (e : Int) :
    (∃ z : Int, y = z * (2 : ℝ) ^ lastPlace f m e) ∨
      (lastPlace f m e = e + Nat.log2 m - f.precision + 1 ∧ |y| < 2 ^ (f.precision - 1) * (2 : ℝ) ^ lastPlace f m e) := by
  obtain ⟨neg, k, g, hk, hlast, -, rfl⟩ := h
  by_cases hg : lastPlace f m e ≤ g
  · exact .inl ⟨_, value_scaledInt neg k hg⟩
  · refine .inr ⟨by unfold lastPlace at hg ⊢; omega, ?_⟩
    rw [abs_value_fin]
    have hk' : (k : ℝ) < 2 * 2 ^ (f.precision - 1) := by exact_mod_cast two_pow_precision f ▸ hk
    have hstep : 2 * (2 : ℝ) ^ g ≤ (2 : ℝ) ^ lastPlace f m e := by
      rw [mul_comm, ← zpow_add_one₀ two_ne_zero]
      exact zpow_le_zpow_right₀ one_le_two (by omega)
    calc (k : ℝ) * (2 : ℝ) ^ g < 2 * 2 ^ (f.precision - 1) * (2 : ℝ) ^ g := mul_lt_mul_of_pos_right hk' (two_zpow_pos g)
      _ = 2 ^ (f.precision - 1) * (2 * (2 : ℝ) ^ g) := by ring
      _ ≤ _ := mul_le_mul_of_nonneg_left hstep (by positivity)

section

variable {m : Nat} {v : ℝ} {e : Int}

/-- An integer stands for a magnitude closely enough to round it to any format. -/
structure StandsClosely (m : Nat) (v : ℝ) : Prop where
  pos : 0 < m
  near : StandsFor m v
  long : v = m ∨ 66 ≤ Nat.log2 m

theorem StandsClosely.exactly (h : 0 < m) : StandsClosely m m := ⟨h, .inl rfl, .inl rfl⟩

theorem StandsClosely.bounds (h : StandsClosely m v) : (2 : ℝ) ^ Nat.log2 m ≤ v ∧ v < 2 ^ (Nat.log2 m + 1) := by
  have hl := log2_bounds h.pos
  by_cases hv : v = m
  · rw [hv]
    exact hl
  · have heven : ∀ i, 1 ≤ i → 2 ^ i % 2 = 0 := fun i hi => by
      rw [← Nat.sub_add_cancel hi, pow_succ, Nat.mul_mod_left]
    have hlong := h.long.resolve_left hv
    have hlow := h.near.lt_iff (t := 2 ^ Nat.log2 m) (.inr (heven _ (by omega)))
    have hhigh := h.near.lt_iff (t := 2 ^ (Nat.log2 m + 1)) (.inr (heven _ (by omega)))
    push_cast at hlow hhigh
    exact ⟨not_lt.1 fun h => absurd (hlow.2 h) (not_lt.2 (by exact_mod_cast hl.1)),
      hhigh.1 (by exact_mod_cast hl.2)⟩

/-- The magnitude in units of the last place: it has the places of the format, or it is below them. -/
theorem StandsClosely.scaled (h : StandsClosely m v) (f : FpFormat) (e : Int) :
    v * (2 : ℝ) ^ (e - lastPlace f m e) < 2 ^ f.precision ∧
      (lastPlace f m e = e + Nat.log2 m - f.precision + 1 →
        (2 : ℝ) ^ (f.precision - 1) ≤ v * (2 : ℝ) ^ (e - lastPlace f m e)) := by
  obtain ⟨hlow, hhigh⟩ := h.bounds
  have hp := f.precision_pos
  have hpos := two_zpow_pos (e - lastPlace f m e)
  have hq : e + Nat.log2 m - f.precision + 1 ≤ lastPlace f m e := le_max_left _ _
  constructor
  · calc v * (2 : ℝ) ^ (e - lastPlace f m e) < 2 ^ (Nat.log2 m + 1) * (2 : ℝ) ^ (e - lastPlace f m e) :=
          mul_lt_mul_of_pos_right hhigh hpos
      _ = (2 : ℝ) ^ ((Nat.log2 m + 1 : Nat) + (e - lastPlace f m e)) := by rw [zpow_add₀ two_ne_zero, zpow_natCast]
      _ ≤ (2 : ℝ) ^ (f.precision : Int) := zpow_le_zpow_right₀ one_le_two (by push_cast; omega)
      _ = 2 ^ f.precision := zpow_natCast _ _
  · intro hq
    calc (2 : ℝ) ^ (f.precision - 1) = (2 : ℝ) ^ ((Nat.log2 m : Int) + (e - lastPlace f m e)) := by
          rw [← zpow_natCast]
          congr 1
          omega
      _ = 2 ^ Nat.log2 m * (2 : ℝ) ^ (e - lastPlace f m e) := by rw [zpow_add₀ two_ne_zero, zpow_natCast]
      _ ≤ _ := mul_le_mul_of_nonneg_right hlow hpos.le

/-! ### The significand of a result -/

/-- The magnitude rounded, in units of the last place. -/
def roundedPlaces (f : FpFormat) (rc : BitVec 2) (neg : Bool) (m : Nat) (e : Int) : Nat :=
  (quantize rc neg m e (lastPlace f m e)).1

theorem roundedPlaces_rounds (h : StandsClosely m v) (f : FpFormat) (rc : BitVec 2) (neg : Bool) (e : Int) :
    RoundsToInt rc (signOf neg * (v * (2 : ℝ) ^ (e - lastPlace f m e))) (signedInt neg (roundedPlaces f rc neg m e)) ∧
      ((quantize rc neg m e (lastPlace f m e)).2 = false ↔
        v * (2 : ℝ) ^ (e - lastPlace f m e) = roundedPlaces f rc neg m e) :=
  quantize_rounds rc neg h.pos h.near (h.long.imp_right fun h => by
    have := f.precision_le
    unfold lastPlace
    omega)

theorem signed_le {neg : Bool} {x : ℝ} {k t : Nat} (h : RoundsToInt rc (signOf neg * x) (signedInt neg k)) :
    (x ≤ t → k ≤ t) ∧ ((t : ℝ) ≤ x → t ≤ k) := by
  cases neg with
  | false =>
    rw [signOf_false, one_mul] at h
    exact ⟨fun hx => by simpa [signedInt] using h.le_int (t := t) (by exact_mod_cast hx),
      fun hx => by simpa [signedInt] using h.int_le (t := t) (by exact_mod_cast hx)⟩
  | true =>
    rw [signOf_true, neg_one_mul] at h
    refine ⟨fun hx => ?_, fun hx => ?_⟩
    · have := h.int_le (t := -(t : Int)) (by push_cast; linarith)
      simp only [signedInt, if_true] at this
      omega
    · have := h.le_int (t := -(t : Int)) (by push_cast; linarith)
      simp only [signedInt, if_true] at this
      omega

theorem roundedPlaces_le (h : StandsClosely m v) (f : FpFormat) (rc : BitVec 2) (neg : Bool) (e : Int) :
    roundedPlaces f rc neg m e ≤ 2 ^ f.precision ∧
      (lastPlace f m e = e + Nat.log2 m - f.precision + 1 → 2 ^ (f.precision - 1) ≤ roundedPlaces f rc neg m e) := by
  obtain ⟨hhigh, hlow⟩ := h.scaled f e
  obtain ⟨hr, -⟩ := roundedPlaces_rounds h f rc neg e
  exact ⟨(signed_le hr).1 (by push_cast; exact hhigh.le), fun hq => (signed_le hr).2 (by push_cast; exact hlow hq)⟩

/-- A significand of a whole power of two, one place up. -/
def carried (f : FpFormat) (k : Nat) (q : Int) : Nat × Int :=
  if k = 2 ^ f.precision then (2 ^ (f.precision - 1), q + 1) else (k, q)

theorem carried_value (f : FpFormat) (k : Nat) (q : Int) :
    ((carried f k q).1 : ℝ) * (2 : ℝ) ^ (carried f k q).2 = k * (2 : ℝ) ^ q := by
  unfold carried
  split
  next h =>
    rw [h, two_pow_precision]
    push_cast
    rw [zpow_add_one₀ two_ne_zero]
    ring
  next => rfl

theorem carried_lt {k : Nat} (q : Int) (h : k ≤ 2 ^ f.precision) : (carried f k q).1 < 2 ^ f.precision := by
  unfold carried
  split
  · rw [two_pow_precision]
    have : 0 < 2 ^ (f.precision - 1) := by positivity
    omega
  next hne => exact lt_of_le_of_ne h hne

theorem carried_even {k : Nat} (q : Int) (h : k % 2 = 0) : (carried f k q).1 % 2 = 0 := by
  unfold carried
  split
  · show 2 ^ (f.precision - 1) % 2 = 0
    cases f <;> decide
  · exact h

theorem carried_place (f : FpFormat) (k : Nat) (q : Int) : q ≤ (carried f k q).2 ∧ (carried f k q).2 ≤ q + 1 ∧
    (2 ^ (f.precision - 1) ≤ k → 2 ^ (f.precision - 1) ≤ (carried f k q).1) := by
  unfold carried
  split
  · exact ⟨by simp, le_rfl, fun _ => le_rfl⟩
  · exact ⟨le_rfl, by simp, id⟩

/-- A result that does not overflow is a number the format holds. -/
theorem carried_representable {k : Nat} {q : Int} (neg : Bool) (hk : k ≤ 2 ^ f.precision) (hlast : f.lastExp ≤ q)
    (hfull : q = f.lastExp ∨ 2 ^ (f.precision - 1) ≤ k)
    (hno : ¬ (2 ^ (f.precision - 1) ≤ (carried f k q).1 ∧ (f.maxExp : Int) < (carried f k q).2 + f.precision - 1)) :
    Representable f
      (if (carried f k q).1 = 0 then FpNum.zero neg else .fin neg (carried f k q).1 (carried f k q).2).value := by
  have hp : 0 < 2 ^ f.precision := by positivity
  split
  · exact ⟨neg, 0, f.lastExp, hp, le_rfl, f.lastExp_le, by simp [FpNum.value_fin]⟩
  · obtain ⟨hq, -, hlow⟩ := carried_place f k q
    refine ⟨neg, _, _, carried_lt q hk, hlast.trans hq, ?_, rfl⟩
    by_cases hn : 2 ^ (f.precision - 1) ≤ (carried f k q).1
    · have := not_and.1 hno hn
      omega
    · have hne : k ≠ 2 ^ f.precision := fun e => hn (hlow (by rw [e, two_pow_precision]; omega))
      have := f.lastExp_le
      rw [show (carried f k q).2 = q from congrArg Prod.snd (if_neg hne), hfull.resolve_right fun h => hn (hlow h)]
      exact this

/-- What `roundFinite` makes of the significand. -/
theorem roundFinite_eq (f : FpFormat) (rc : BitVec 2) (neg : Bool) (m : Nat) (e : Int) :
    let n := carried f (roundedPlaces f rc neg m e) (lastPlace f m e)
    let r := roundFinite f rc neg m e
    (r.exc.overflow = true ↔ 2 ^ (f.precision - 1) ≤ n.1 ∧ (f.maxExp : Int) < n.2 + f.precision - 1) ∧
    (r.exc.overflow = true → r.exc.inexact = true ∧ r.num = overflowDefault f rc neg) ∧
    (r.exc.overflow = false → r.num = (if n.1 = 0 then .zero neg else .fin neg n.1 n.2) ∧
      r.exc.inexact = (quantize rc neg m e (lastPlace f m e)).2) := by
  intro n r
  by_cases h : 2 ^ (f.precision - 1) ≤ n.1 ∧ (f.maxExp : Int) < n.2 + f.precision - 1
  · have hr : r = { num := overflowDefault f rc neg, exc := { overflow := true, inexact := true } } := if_pos h
    rw [hr]
    exact ⟨iff_of_true rfl h, fun _ => ⟨rfl, rfl⟩, fun e => by cases e⟩
  · have hr : r = { num := if n.1 = 0 then .zero neg else .fin neg n.1 n.2
                    exc := { tiny := r.exc.tiny, inexact := (quantize rc neg m e (lastPlace f m e)).2 } } := by
      have hr : r = _ := if_neg h
      rw [hr]
      rfl
    rw [hr]
    exact ⟨iff_of_false Bool.false_ne_true h, fun e => absurd e Bool.false_ne_true, fun _ => ⟨rfl, rfl⟩⟩

/-- A positive number that does not overflow is rounded once, and inexact exactly when that changes it (R429). -/
theorem roundFinite_rounds (h : StandsClosely m v) (f : FpFormat) (rc : BitVec 2) (neg : Bool) (e : Int)
    (hno : (roundFinite f rc neg m e).exc.overflow = false) :
    RoundsTo f rc (signOf neg * (v * (2 : ℝ) ^ e)) (roundFinite f rc neg m e).num ∧
      ((roundFinite f rc neg m e).exc.inexact = false ↔
        (roundFinite f rc neg m e).num.value = signOf neg * (v * (2 : ℝ) ^ e)) := by
  obtain ⟨hover, -, hfits⟩ := roundFinite_eq f rc neg m e
  obtain ⟨hnum, hinexact⟩ := hfits hno
  obtain ⟨hround, hlost⟩ := roundedPlaces_rounds h f rc neg e
  obtain ⟨hle, hfull⟩ := roundedPlaces_le h f rc neg e
  have hsmall := (h.scaled f e).2
  rw [hno] at hover
  generalize hk : roundedPlaces f rc neg m e = k at *
  have hvalue : (roundFinite f rc neg m e).num.value = signedInt neg k * (2 : ℝ) ^ lastPlace f m e := by
    rw [hnum, cast_signedInt, mul_assoc, ← carried_value f]
    split
    next h0 => simp [h0]
    next => rw [FpNum.value_fin, mul_assoc]
  have hx : signOf neg * (v * (2 : ℝ) ^ e) =
      signOf neg * (v * (2 : ℝ) ^ (e - lastPlace f m e)) * (2 : ℝ) ^ lastPlace f m e := by
    rw [mul_assoc, mul_assoc, ← zpow_add₀ two_ne_zero, sub_add_cancel]
  rw [hx]
  refine ⟨roundsTo_of_scaled hround hvalue ?_ ?_ ?_, ?_⟩
  · rw [hnum]
    refine carried_representable neg hle (le_max_right _ _) ?_ fun h => absurd (hover.2 h) Bool.false_ne_true
    rcases max_choice (e + Nat.log2 m - f.precision + 1) f.lastExp with hq | hq
    · exact .inr (hfull hq)
    · exact .inl hq
  · intro heven neg' m' e' he
    rw [hnum] at he
    split at he
    · cases he
    · cases he
      exact carried_even _ ((signedInt_even neg k).1 heven)
  · intro y hy
    obtain ⟨z, hz⟩ | ⟨hq, hlt⟩ := representable_places hy m e
    · exact .inl ⟨z, mul_right_cancel₀ (two_zpow_pos _).ne' hz⟩
    · refine .inr ⟨2 ^ (f.precision - 1), ?_, ?_⟩
      · rw [abs_mul, abs_of_pos (two_zpow_pos _)] at hlt
        push_cast
        exact lt_of_mul_lt_mul_right hlt (two_zpow_pos _).le
      · push_cast
        rw [abs_mul, abs_signOf, one_mul]
        exact (hsmall hq).trans (le_abs_self _)
  · rw [hinexact, hlost, hvalue, mul_left_inj' (two_zpow_pos _).ne', cast_signedInt,
      mul_right_inj' (signOf_ne_zero neg)]
    exact eq_comm

end

end Sys2Proof.Machine
end

section
/-! SUPPORT. Overflow: a number that rounds to more than a format holds (R428). -/

namespace Sys2Proof.Machine

variable {f : FpFormat} {rc : BitVec 2} {neg : Bool}

/-- A magnitude below an integer is so near to it that it rounds to it (R429). -/
def Reaches (rc : BitVec 2) (neg : Bool) (t x : ℝ) : Prop :=
  if rc = 0#2 then t - 1 / 2 ≤ x
  else if (rc = 1#2 ∧ neg = true) ∨ (rc = 2#2 ∧ neg = false) then t - 1 < x
  else t ≤ x

theorem reaches_of_le {t x : ℝ} (h : t ≤ x) : Reaches rc neg t x := by
  unfold Reaches
  repeat' split
  all_goals linarith

theorem not_reaches {t x : ℝ} (h : x < t - 1) : ¬ Reaches rc neg t x := by
  unfold Reaches
  repeat' split
  all_goals linarith

theorem nearest_reaches {x : ℝ} {k t : Nat} (hk : k ≤ t) (ht : t % 2 = 0) (hn : |x - k| ≤ 1 / 2)
    (htie : |x - k| = 1 / 2 → k % 2 = 0) : k = t ↔ (t : ℝ) - 1 / 2 ≤ x := by
  obtain ⟨hl, hu⟩ := abs_le.1 hn
  refine ⟨fun e => by rw [← e]; linarith, fun h => ?_⟩
  by_contra hne
  have hlt : ((k + 1 : Nat) : ℝ) ≤ t := by exact_mod_cast (by omega : k + 1 ≤ t)
  push_cast at hlt
  have heven := htie (by rw [abs_of_nonneg (by linarith)]; linarith)
  have : (t : ℝ) < ((k + 2 : Nat) : ℝ) := by push_cast; linarith
  have : t < k + 2 := by exact_mod_cast this
  omega

theorem ceil_reaches {x : ℝ} {k t : Nat} (hk : (k : Int) = ⌈x⌉) (hlt : x < t) : k = t ↔ (t : ℝ) - 1 < x := by
  rw [← Int.ofNat_inj, hk, Int.ceil_eq_iff]
  push_cast
  exact ⟨fun h => h.1, fun h => ⟨h, hlt.le⟩⟩

theorem floor_reaches {x : ℝ} {k t : Nat} (hk : (k : Int) = ⌊x⌋) (hlt : x < t) : k = t ↔ (t : ℝ) ≤ x := by
  rw [← Int.ofNat_inj, hk, Int.floor_eq_iff]
  push_cast
  exact ⟨fun h => h.1, fun h => absurd h (not_le.2 hlt)⟩

theorem rounds_reaches {x : ℝ} {k t : Nat} (h : RoundsToInt rc (signOf neg * x) (signedInt neg k)) (hx : 0 ≤ x)
    (hlt : x < t) (ht : t % 2 = 0) : k = t ↔ Reaches rc neg t x := by
  unfold Reaches
  rcases rc_cases rc with rfl | rfl | rfl | rfl
  · obtain ⟨hn, htie⟩ := h.nearest rfl
    rw [abs_signed_sub] at hn htie
    rw [if_pos rfl]
    exact nearest_reaches ((signed_le h).1 hlt.le) ht hn fun e => (signedInt_even neg k).1 (htie e)
  · have hd := h.down rfl
    cases neg with
    | false => simpa using floor_reaches (by simpa [signedInt] using hd) hlt
    | true => simpa using ceil_reaches (by simpa [signedInt, Int.floor_neg] using hd) hlt
  · have hu := h.up rfl
    cases neg with
    | false => simpa using ceil_reaches (by simpa [signedInt] using hu) hlt
    | true => simpa using floor_reaches (by simpa [signedInt, Int.ceil_neg] using hu) hlt
  · have hz := h.towardZero rfl
    have hk : (k : Int) = ⌊x⌋ := by
      cases neg with
      | false => simpa [signedInt, hx] using hz
      | true =>
        simp only [signedInt, signOf_true, neg_one_mul, Int.floor_neg, Int.ceil_neg, if_true] at hz
        split at hz
        next h0 =>
          have : x = 0 := by linarith
          subst this
          simpa using hz
        next => omega
    simpa using floor_reaches hk hlt

/-- Too large, in units of the last place of the largest numbers. -/
theorem tooLarge_iff (f : FpFormat) (rc : BitVec 2) (neg : Bool) (x : ℝ) :
    TooLarge f rc neg (x * (2 : ℝ) ^ ((f.maxExp : Int) - f.precision + 1)) ↔ Reaches rc neg (2 ^ f.precision : Nat) x := by
  have hpos := two_zpow_pos ((f.maxExp : Int) - f.precision + 1)
  unfold TooLarge Reaches
  push_cast
  split
  · rw [zpow_add_one₀ two_ne_zero, pow_succ]
    have hhalf : ∀ c : ℝ, ((2 : ℝ) ^ f.precision * 2 - 1) * c = (2 ^ f.precision - 1 / 2) * (c * 2) := fun c => by ring
    rw [hhalf, mul_le_mul_iff_left₀ (mul_pos (two_zpow_pos _) two_pos)]
  · split
    · rw [mul_lt_mul_iff_left₀ hpos]
    · have hmax : (2 : ℝ) ^ (f.maxExp + 1) = 2 ^ f.precision * (2 : ℝ) ^ ((f.maxExp : Int) - f.precision + 1) := by
        rw [← zpow_natCast, ← zpow_natCast, ← zpow_add₀ two_ne_zero]
        congr 1
        push_cast
        ring
      rw [hmax, mul_le_mul_iff_left₀ hpos]

/-- Overflow is signalled exactly for a number that is too large (R428). -/
theorem roundFinite_overflow_iff {m : Nat} (hm : 0 < m) (f : FpFormat) (rc : BitVec 2) (neg : Bool) (e : Int) :
    (roundFinite f rc neg m e).exc.overflow = true ↔ TooLarge f rc neg |(FpNum.fin neg m e).value| := by
  have h := StandsClosely.exactly hm
  obtain ⟨hover, -, -⟩ := roundFinite_eq f rc neg m e
  obtain ⟨hround, -⟩ := roundedPlaces_rounds h f rc neg e
  obtain ⟨hle, hfull⟩ := roundedPlaces_le h f rc neg e
  obtain ⟨hhigh, hlow⟩ := h.scaled f e
  have hplace : lastPlace f m e = e + Nat.log2 m - f.precision + 1 ∨ lastPlace f m e = f.lastExp := max_choice _ _
  have htwo := two_pow_precision f
  have hone : 1 ≤ 2 ^ (f.precision - 1) := Nat.one_le_two_pow
  have hlast := f.lastExp_le
  have hx : |(FpNum.fin neg m e).value| = m * (2 : ℝ) ^ (e - lastPlace f m e) *
      (2 : ℝ) ^ (lastPlace f m e - ((f.maxExp : Int) - f.precision + 1)) *
        (2 : ℝ) ^ ((f.maxExp : Int) - f.precision + 1) := by
    rw [abs_value_fin, mul_assoc, mul_assoc, ← zpow_add₀ two_ne_zero, ← zpow_add₀ two_ne_zero]
    congr 2
    ring
  have hpos : 0 ≤ (m : ℝ) * (2 : ℝ) ^ (e - lastPlace f m e) := by positivity
  rw [hover, hx, tooLarge_iff]
  generalize roundedPlaces f rc neg m e = k at *
  generalize (m : ℝ) * (2 : ℝ) ^ (e - lastPlace f m e) = x at *
  obtain ⟨hq, hq', hlow'⟩ := carried_place f k (lastPlace f m e)
  rcases lt_trichotomy (lastPlace f m e) ((f.maxExp : Int) - f.precision + 1) with hlt | heq | hgt
  · refine iff_of_false (fun hn => by omega) (not_reaches ?_)
    have hhalf : (2 : ℝ) ^ (lastPlace f m e - ((f.maxExp : Int) - f.precision + 1)) ≤ 1 / 2 := by
      rw [one_div, ← zpow_neg_one]
      exact zpow_le_zpow_right₀ one_le_two (by omega)
    have hbig : (1 : ℝ) ≤ 2 ^ (f.precision - 1) := by exact_mod_cast hone
    have htwo' : (2 : ℝ) ^ f.precision = 2 * 2 ^ (f.precision - 1) := by exact_mod_cast htwo
    calc x * _ ≤ x * (1 / 2) := mul_le_mul_of_nonneg_left hhalf hpos
      _ < 2 ^ f.precision * (1 / 2) := by linarith
      _ ≤ _ := by push_cast; linarith
  · rw [heq, sub_self, zpow_zero, mul_one, ← rounds_reaches hround hpos (by push_cast; exact hhigh) (by omega), carried]
    split
    next hk => exact iff_of_true ⟨le_rfl, by dsimp only; omega⟩ hk
    next hk => exact iff_of_false (fun hn => by have := hn.2; dsimp only at this; omega) hk
  · have hfirst := hplace.resolve_right (by omega)
    refine iff_of_true ⟨hlow' (hfull hfirst), by omega⟩ (reaches_of_le ?_)
    have htwice : (2 : ℝ) ≤ (2 : ℝ) ^ (lastPlace f m e - ((f.maxExp : Int) - f.precision + 1)) := by
      conv_lhs => rw [← zpow_one (2 : ℝ)]
      exact zpow_le_zpow_right₀ one_le_two (by omega)
    rw [htwo]
    push_cast
    rw [mul_comm]
    exact mul_le_mul (hlow hfirst) htwice (by norm_num) hpos

end Sys2Proof.Machine
end

section
/-! SUPPORT. The exact results of the operations: sums, quotients, square roots, remainders (R435 to R452). -/

namespace Sys2Proof.Machine

variable {f : FpFormat} {rc : BitVec 2} {x y : FpNum}

/-! ### Rounded once -/

/-- A number before rounding comes to `v` rounded once, unless it overflows; inexact tells whether that changed it. -/
def RoundsOnce (f : FpFormat) (rc : BitVec 2) (n : FpNum) (v : ℝ) : Prop :=
  (roundNum f rc n).exc.overflow = false → RoundsTo f rc v (roundNum f rc n).num ∧
    ((roundNum f rc n).exc.inexact = false ↔ (roundNum f rc n).num.value = v)

theorem roundsOnce_of_close {m : Nat} {w v : ℝ} (h : StandsClosely m w) (f : FpFormat) (rc : BitVec 2) (neg : Bool) (e : Int)
    (hv : signOf neg * (w * (2 : ℝ) ^ e) = v) : RoundsOnce f rc (.fin neg m e) v := by
  subst hv
  exact roundFinite_rounds h f rc neg e

theorem roundsOnce_zero (f : FpFormat) (rc : BitVec 2) (b : Bool) : RoundsOnce f rc (.zero b) 0 := by
  have hrep : Representable f (FpNum.zero b).value :=
    ⟨b, 0, f.lastExp, by positivity, le_rfl, f.lastExp_le, by simp [FpNum.value_fin]⟩
  refine fun _ => ⟨⟨hrep, fun _ y _ => ⟨?_, fun _ _ _ _ _ he => by cases he⟩, fun _ => ⟨?_, fun y _ h => ?_⟩,
    fun _ => ⟨?_, fun y _ h => ?_⟩, fun _ => ⟨?_, ?_, fun y _ h _ => ?_⟩⟩, iff_of_true rfl rfl⟩ <;>
    simp_all [roundNum]

/-- The number of a result that is exact. -/
theorem roundsOnce_of_exact (f : FpFormat) (rc : BitVec 2) {n : FpNum} {v : ℝ} (h : n.Finite) (hv : n.value = v) :
    RoundsOnce f rc n v := by
  subst hv
  cases n with
  | zero b => exact roundsOnce_zero f rc b
  | fin neg m e => exact roundsOnce_of_close (.exactly h) f rc neg e (by rw [FpNum.value_fin, mul_assoc])
  | inf b => exact h.elim
  | nan b v => exact h.elim

/-! ### Sums -/

theorem value_int {i : Int} (h : i ≠ 0) (q : Int) :
    (FpNum.fin (decide (i < 0)) i.natAbs q).Finite ∧ (FpNum.fin (decide (i < 0)) i.natAbs q).value = i * (2 : ℝ) ^ q := by
  refine ⟨Int.natAbs_pos.2 h, ?_⟩
  have hs := (ofInt_finite i).2
  rw [FpNum.ofInt, if_neg h, FpNum.value_fin, zpow_zero, mul_one] at hs
  rw [FpNum.value_fin, hs]

theorem fpAdd_finite (k : Nat) (rc : BitVec 2) (hx : x.Finite) (hy : y.Finite) :
    ∃ c : FpNum, fpAdd k rc x y = { num := c } ∧ c.Finite ∧ c.value = y.value + x.value := by
  cases x with
  | inf b => exact hx.elim
  | nan b v => exact hx.elim
  | zero a =>
    cases y with
    | inf b => exact hy.elim
    | nan b v => exact hy.elim
    | zero b => exact ⟨_, rfl, trivial, by simp⟩
    | fin b n g => exact ⟨_, rfl, hy, by simp⟩
  | fin a m e =>
    cases y with
    | inf b => exact hy.elim
    | nan b v => exact hy.elim
    | zero b => exact ⟨_, rfl, hx, by simp⟩
    | fin b n g =>
      refine ⟨_, rfl, ?_⟩
      have hsum : (FpNum.fin b n g).value + (FpNum.fin a m e).value =
          ((scaledInt a m e (min e g) + scaledInt b n g (min e g) : Int) : ℝ) * (2 : ℝ) ^ min e g := by
        rw [value_scaledInt a m (min_le_left e g), value_scaledInt b n (min_le_right e g), Int.cast_add]
        ring
      rw [hsum]
      split
      next h0 => exact ⟨trivial, by rw [h0]; simp⟩
      next h0 => exact value_int h0 _

theorem negate_finite (hx : x.Finite) : x.negate.Finite ∧ x.negate.value = -x.value := by
  cases x with
  | inf b => exact hx.elim
  | nan b v => exact hx.elim
  | zero a => exact ⟨trivial, by simp [FpNum.negate]⟩
  | fin a m e => exact ⟨hx, by cases a <;> simp [FpNum.negate, FpNum.value_fin]⟩

/-! ### Results with a sticky bit -/

/-- Twice a number, cut off to its integer, with a last bit that says whether something was cut off. -/
theorem standsClosely_sticky {r : Nat} {w : ℝ} {left : Bool} (hlow : (r : ℝ) ≤ w) (hhigh : w < r + 1)
    (hleft : left = false ↔ w = r) (hlong : 2 ^ 66 ≤ r) : StandsClosely (2 * r + left.toNat) (2 * w) := by
  refine ⟨by omega, ?_, .inr ?_⟩
  · cases left with
    | false => exact .inl (by rw [hleft.1 rfl]; simp)
    | true =>
      have hne : (r : ℝ) ≠ w := fun e => by simpa using hleft.2 e.symm
      have hlt := lt_of_le_of_ne hlow hne
      refine .inr ⟨by simp, ?_⟩
      rw [abs_lt]
      push_cast [Bool.toNat_true]
      constructor <;> linarith
  · rw [Nat.log2_eq_log_two]
    exact Nat.le_log_of_pow_le (by decide) (by omega)

theorem quotient_close (n : Nat) {m : Nat} (hm : 0 < m) (hn : 0 < n) :
    StandsClosely (2 * (n * 2 ^ (68 + Nat.log2 m) / m) + (decide (n * 2 ^ (68 + Nat.log2 m) % m ≠ 0)).toNat)
      (2 * ((n * 2 ^ (68 + Nat.log2 m) : Nat) / m : ℝ)) := by
  have hm0 : (0 : ℝ) < m := by exact_mod_cast hm
  have hbig : 2 ^ 66 * m ≤ n * 2 ^ (68 + Nat.log2 m) := by
    have hlt : m < 2 ^ (Nat.log2 m + 1) := by
      rw [Nat.log2_eq_log_two]
      exact Nat.lt_pow_succ_log_self (by decide) m
    calc 2 ^ 66 * m ≤ 2 ^ 66 * 2 ^ (Nat.log2 m + 1) := Nat.mul_le_mul_left _ hlt.le
      _ ≤ 2 ^ (68 + Nat.log2 m) := by rw [← pow_add]; exact Nat.pow_le_pow_right (by decide) (by omega)
      _ ≤ n * 2 ^ (68 + Nat.log2 m) := Nat.le_mul_of_pos_left _ hn
  generalize n * 2 ^ (68 + Nat.log2 m) = k at hbig ⊢
  have hdiv := Nat.div_add_mod k m
  have hlt := Nat.mod_lt k hm
  refine standsClosely_sticky ?_ ?_ ?_ ((Nat.le_div_iff_mul_le hm).2 hbig)
  · rw [le_div_iff₀ hm0]
    exact_mod_cast Nat.div_mul_le_self k m
  · rw [div_lt_iff₀ hm0]
    exact_mod_cast (by rw [add_mul, one_mul, mul_comm (k / m)]; omega : k < (k / m + 1) * m)
  · rw [decide_eq_false_iff_not, not_not, div_eq_iff hm0.ne']
    norm_cast
    rw [mul_comm (k / m)]
    omega

theorem fpDiv_rounds (k : Nat) (f : FpFormat) (rc : BitVec 2) (hx : x.Finite) (hy : y.Finite) (hz : ∀ b, x ≠ .zero b) :
    RoundsOnce f rc (fpDiv k rc x y).num (y.value / x.value) := by
  cases x with
  | inf b => exact hx.elim
  | nan b v => exact hx.elim
  | zero a => exact absurd rfl (hz a)
  | fin a m e =>
    cases y with
    | inf b => exact hy.elim
    | nan b v => exact hy.elim
    | zero b =>
      rw [FpNum.value_zero, zero_div]
      exact roundsOnce_zero f rc _
    | fin b n g =>
      refine roundsOnce_of_close (quotient_close n hx hy) f rc (a != b) _ ?_
      have hm0 : (m : ℝ) ≠ 0 := by exact_mod_cast hx.ne'
      rw [FpNum.value_fin, FpNum.value_fin, zpow_sub₀ two_ne_zero, zpow_sub₀ two_ne_zero, zpow_sub₀ two_ne_zero, zpow_natCast,
        zpow_one]
      have := two_zpow_pos e
      push_cast
      cases a <;> cases b <;> simp <;> field_simp

/-! ### Square roots -/

theorem sqrtBits_spec (n : Nat) : ∀ (k acc : Nat), acc * acc ≤ n → n < (acc + 2 ^ k) * (acc + 2 ^ k) →
    sqrtBits n k acc * sqrtBits n k acc ≤ n ∧ n < (sqrtBits n k acc + 1) * (sqrtBits n k acc + 1) := by
  intro k
  induction k with
  | zero => exact fun acc hl hu => ⟨hl, hu⟩
  | succ k ih =>
    intro acc hl hu
    rw [sqrtBits]
    split
    next h => exact ih _ h (by rwa [pow_succ, mul_two, ← add_assoc] at hu)
    next h => exact ih _ hl (not_le.1 h)

/-- The magnitude under a root, moved up to at least 134 bits and an even exponent. -/
theorem radicand_spec {m : Nat} (hm : 0 < m) (h64 : m < 2 ^ 64) (e : Int) :
    let k := 134 - Nat.log2 m
    let sh := if (e - k) % 2 = 0 then k else k + 1
    2 ^ 134 ≤ m * 2 ^ sh ∧ m * 2 ^ sh < 2 ^ 140 ∧ 2 * ((e - sh) / 2) = e - sh := by
  intro k sh
  have hlow : 2 ^ Nat.log2 m ≤ m := Nat.log2_self_le hm.ne'
  have hhigh : m < 2 ^ (Nat.log2 m + 1) := Nat.lt_log2_self
  have hlog : Nat.log2 m < 64 := (Nat.log2_lt hm.ne').2 h64
  have hsh : k ≤ sh ∧ sh ≤ k + 1 := by
    simp only [sh]
    split <;> omega
  refine ⟨?_, ?_, ?_⟩
  · calc 2 ^ 134 = 2 ^ Nat.log2 m * 2 ^ k := by rw [← pow_add]; congr 1; omega
      _ ≤ m * 2 ^ sh := Nat.mul_le_mul hlow (Nat.pow_le_pow_right (by decide) hsh.1)
  · calc m * 2 ^ sh < 2 ^ (Nat.log2 m + 1) * 2 ^ sh := Nat.mul_lt_mul_of_pos_right hhigh (by positivity)
      _ ≤ 2 ^ 140 := by rw [← pow_add]; exact Nat.pow_le_pow_right (by decide) (by omega)
  · simp only [sh]
    split <;> push_cast <;> omega

theorem root_close {n : Nat} (hlow : 2 ^ 134 ≤ n) (hhigh : n < 2 ^ 140) :
    StandsClosely (2 * sqrtBits n 70 0 + (decide (sqrtBits n 70 0 * sqrtBits n 70 0 ≠ n)).toNat) (2 * Real.sqrt n) := by
  obtain ⟨hl, hu⟩ := sqrtBits_spec n 70 0 (Nat.zero_le n) (by rw [Nat.zero_add, ← pow_add]; exact hhigh)
  generalize sqrtBits n 70 0 = r at hl hu ⊢
  refine standsClosely_sticky ?_ ?_ ?_ ?_
  · exact Real.le_sqrt_of_sq_le (by rw [sq]; exact_mod_cast hl)
  · rw [Real.sqrt_lt' (by positivity), sq]
    exact_mod_cast hu
  · rw [decide_eq_false_iff_not, not_not, Real.sqrt_eq_iff_mul_self_eq (by positivity) (by positivity)]
    norm_cast
    exact eq_comm
  · by_contra hr
    have : (r + 1) * (r + 1) ≤ 2 ^ 66 * 2 ^ 66 := Nat.mul_le_mul (by omega) (by omega)
    omega

theorem fpSqrt_rounds (k : Nat) (f : FpFormat) (rc : BitVec 2) (hx : x.Finite)
    (h64 : ∀ neg m e, x = .fin neg m e → m < 2 ^ 64) (h0 : 0 ≤ x.value) : RoundsOnce f rc (fpSqrt k rc x).num (Real.sqrt x.value) := by
  cases x with
  | inf b => exact hx.elim
  | nan b v => exact hx.elim
  | zero b =>
    rw [FpNum.value_zero, Real.sqrt_zero]
    exact roundsOnce_zero f rc _
  | fin neg m e =>
    cases neg with
    | true => exact absurd h0 (not_le.2 (FpNum.value_neg e hx))
    | false =>
      obtain ⟨hlow, hhigh, heven⟩ := radicand_spec hx (h64 _ _ _ rfl) e
      refine roundsOnce_of_close (root_close hlow hhigh) f rc false _ ?_
      generalize (if (e - ((134 - Nat.log2 m : Nat) : Int)) % 2 = 0 then 134 - Nat.log2 m else 134 - Nat.log2 m + 1) = sh
        at *
      generalize (e - (sh : Int)) / 2 = j at *
      have hv : (FpNum.fin false m e).value = (m * 2 ^ sh : Nat) * ((2 : ℝ) ^ j * (2 : ℝ) ^ j) := by
        rw [FpNum.value_fin, signOf_false, one_mul, ← zpow_add₀ two_ne_zero, ← two_mul, heven, zpow_sub₀ two_ne_zero,
          zpow_natCast]
        push_cast
        field_simp
      rw [hv, Real.sqrt_mul (by positivity), Real.sqrt_mul_self (two_zpow_pos j).le, signOf_false, zpow_sub₀ two_ne_zero,
        zpow_one]
      ring

/-! ### Remainders -/

/-- A quotient truncated toward zero. -/
theorem truncated_signed (neg : Bool) {q : ℝ} {k : Nat} (hlow : (k : ℝ) ≤ q) (hhigh : q < k + 1) :
    (if 0 ≤ signOf neg * q then (⌊signOf neg * q⌋ : ℝ) else (⌈signOf neg * q⌉ : ℝ)) = signOf neg * k := by
  have hfloor : ⌊q⌋ = k := Int.floor_eq_iff.2 ⟨by exact_mod_cast hlow, by exact_mod_cast hhigh⟩
  have hq : 0 ≤ q := le_trans (Nat.cast_nonneg k) hlow
  cases neg with
  | false => simp [hq, hfloor]
  | true =>
    simp only [signOf_true, neg_one_mul, Int.floor_neg, Int.ceil_neg, hfloor]
    split
    next h0 =>
      have hzero : q = 0 := by linarith
      have hk : (k : ℝ) = 0 := le_antisymm (by linarith) (Nat.cast_nonneg k)
      simp [hzero, hk]
    next => simp

theorem value_scaled (neg : Bool) (m : Nat) {e q : Int} (h : q ≤ e) :
    (FpNum.fin neg m e).value = signOf neg * (m * 2 ^ (e - q).toNat : Nat) * (2 : ℝ) ^ q := by
  rw [value_scaledInt neg m h, scaledInt]
  cases neg <;> simp

theorem signOf_ne (a b : Bool) : signOf (a != b) = signOf b / signOf a ∧ signOf a * signOf (a != b) = signOf b := by
  cases a <;> cases b <;> norm_num

theorem fpRem_exact (k : Nat) (rc : BitVec 2) (hx : x.Finite) (hy : y.Finite) (hz : ∀ b, x ≠ .zero b) :
    let r := fpRem k rc x y
    let q := y.value / x.value
    r.exc = {} ∧ r.num.Finite ∧ r.num.sign = y.sign ∧
      r.num.value = y.value - x.value * (if 0 ≤ q then (⌊q⌋ : ℝ) else (⌈q⌉ : ℝ)) := by
  cases x with
  | inf b => exact hx.elim
  | nan b v => exact hx.elim
  | zero a => exact absurd rfl (hz a)
  | fin a m e =>
    cases y with
    | inf b => exact hy.elim
    | nan b v => exact hy.elim
    | zero b => exact ⟨rfl, trivial, rfl, by simp [fpRem]⟩
    | fin b n g =>
      intro r q
      have hxv := value_scaled a m (min_le_left e g)
      have hyv := value_scaled b n (min_le_right e g)
      have hB : 0 < m * 2 ^ (e - min e g).toNat := Nat.mul_pos hx (by positivity)
      have hr : r = { num := (if n * 2 ^ (g - min e g).toNat % (m * 2 ^ (e - min e g).toNat) = 0 then .zero b
          else .fin b (n * 2 ^ (g - min e g).toNat % (m * 2 ^ (e - min e g).toNat)) (min e g)) } := rfl
      have hc := two_zpow_pos (min e g)
      simp only [q, hxv, hyv, hr]
      generalize n * 2 ^ (g - min e g).toNat = i at *
      generalize m * 2 ^ (e - min e g).toNat = j at *
      have hj : (0 : ℝ) < j := by exact_mod_cast hB
      have hi : (i : ℝ) = j * (i / j : Nat) + (i % j : Nat) := by exact_mod_cast (Nat.div_add_mod i j).symm
      have hlow : ((i / j : Nat) : ℝ) ≤ i / j := Nat.cast_div_le
      have hhigh : (i / j : ℝ) < (i / j : Nat) + 1 := by
        rw [div_lt_iff₀ hj, mul_comm]
        exact_mod_cast Nat.lt_mul_div_succ i hB
      have hq : signOf b * (i : ℝ) * (2 : ℝ) ^ min e g / (signOf a * j * (2 : ℝ) ^ min e g) = signOf (a != b) * (i / j) := by
        rw [(signOf_ne a b).1, mul_div_mul_right _ _ hc.ne', mul_div_mul_comm]
      rw [hq, truncated_signed _ hlow hhigh]
      have hsign := (signOf_ne a b).2
      have hvalue : signOf b * ((i % j : Nat) : ℝ) * (2 : ℝ) ^ min e g = signOf b * i * (2 : ℝ) ^ min e g -
          signOf a * j * (2 : ℝ) ^ min e g * (signOf (a != b) * ((i / j : Nat) : ℝ)) := by
        rw [hi, ← hsign]
        ring
      split
      next h0 => exact ⟨trivial, trivial, rfl, by rw [← hvalue, h0]; simp⟩
      next h0 => exact ⟨trivial, Nat.pos_of_ne_zero h0, rfl, by rw [← hvalue, FpNum.value_fin]⟩

/-! ### Rounding to an integer, exponents and scaling -/

theorem fpRoundIntegral_exact (k : Nat) (rc : BitVec 2) (hx : x.Finite) :
    ∃ i : Int, RoundsToInt rc x.value i ∧ (fpRoundIntegral k rc x).num.Finite ∧
      (fpRoundIntegral k rc x).num.sign = x.sign ∧ (fpRoundIntegral k rc x).num.value = i ∧
      ∃ b : Bool, (b = false ↔ x.value = i) ∧ (fpRoundIntegral k rc x).exc = { inexact := b } := by
  cases x with
  | inf b => exact hx.elim
  | nan b v => exact hx.elim
  | zero b => exact ⟨0, roundsToInt_exact rc (by simp), trivial, rfl, by simp [fpRoundIntegral], false, by simp, rfl⟩
  | fin neg m e =>
    obtain ⟨i, b, hi, hr, hb⟩ := roundToInt_finite rc hx
    rw [roundToInt, Option.some_inj, Prod.mk.injEq] at hi
    obtain ⟨hi, hb'⟩ := hi
    refine ⟨i, hr, ?_⟩
    rw [fpRoundIntegral]
    split
    next he =>
      have hv : (FpNum.fin neg m e).value = i := by
        rw [← hb, ← hb', quantize_exact rc neg m he]
      exact ⟨hx, rfl, hv, false, iff_of_true rfl hv, rfl⟩
    next he =>
      have hv : signOf neg * ((quantize rc neg m e 0).1 : ℝ) = i := by
        rw [← cast_signedInt, ← hi]
        rfl
      dsimp only
      split
      next h0 => exact ⟨trivial, rfl, by rw [← hv, h0]; simp, b, hb, by rw [hb']⟩
      next h0 =>
        exact ⟨Nat.pos_of_ne_zero h0, rfl, by rw [← hv, FpNum.value_fin, zpow_zero, mul_one], b, hb, by rw [hb']⟩

theorem log_value (neg : Bool) {m : Nat} (hm : 0 < m) (e : Int) :
    Int.log 2 |(FpNum.fin neg m e).value| = e + Nat.log2 m := by
  obtain ⟨hlow, hhigh⟩ := log2_bounds hm
  have hc := two_zpow_pos e
  have hpos : 0 < |(FpNum.fin neg m e).value| := by
    rw [abs_value_fin]
    positivity
  apply le_antisymm
  · rw [← Int.lt_add_one_iff, ← Int.lt_zpow_iff_log_lt (by decide) hpos, abs_value_fin]
    push_cast
    rw [add_assoc, zpow_add₀ two_ne_zero, mul_comm]
    exact mul_lt_mul_of_pos_left (by exact_mod_cast hhigh) hc
  · rw [← Int.zpow_le_iff_le_log (by decide) hpos, abs_value_fin]
    push_cast
    rw [zpow_add₀ two_ne_zero, mul_comm, zpow_natCast]
    exact mul_le_mul_of_nonneg_right hlow hc.le

theorem fpLogBinary_exact (k : Nat) (rc : BitVec 2) (hx : x.Finite) (hz : ∀ b, x ≠ .zero b) :
    (fpLogBinary k rc x).exc = {} ∧ (fpLogBinary k rc x).num.Finite ∧
      (fpLogBinary k rc x).num.value = (Int.log 2 |x.value| : ℝ) := by
  cases x with
  | inf b => exact hx.elim
  | nan b v => exact hx.elim
  | zero b => exact absurd rfl (hz b)
  | fin neg m e =>
    rw [log_value neg hx e]
    exact ⟨rfl, ofInt_finite _⟩

theorem fpScale_exact (n : Int) (hy : y.Finite) :
    (fpScale n y).exc = {} ∧ (fpScale n y).num.Finite ∧ (fpScale n y).num.sign = y.sign ∧
      (fpScale n y).num.value = y.value * (2 : ℝ) ^ n := by
  cases y with
  | inf b => exact hy.elim
  | nan b v => exact hy.elim
  | zero b => exact ⟨rfl, trivial, rfl, by simp [fpScale]⟩
  | fin neg m e =>
    exact ⟨rfl, hy, rfl, by rw [fpScale, FpNum.value_fin, FpNum.value_fin, zpow_add₀ two_ne_zero, ← mul_assoc]⟩

theorem overflowDefault_eq (f : FpFormat) (rc : BitVec 2) (neg : Bool) :
    overflowDefault f rc neg = if rc = 0#2 ∨ (rc = 1#2 ∧ neg = true) ∨ (rc = 2#2 ∧ neg = false) then .inf neg
      else .fin neg (2 ^ f.precision - 1) ((f.maxExp : Int) - f.precision + 1) := by
  rcases rc_cases rc with rfl | rfl | rfl | rfl <;> cases neg <;> simp [overflowDefault]

/-- Settles O50: each operation's exact result, or one with a sticky bit, is rounded by `roundFinite`. -/
theorem arithmeticIsRoundedOnce : Obligations.ArithmeticIsRoundedOnce := by
  unfold Obligations.ArithmeticIsRoundedOnce
  refine ⟨fun f rc k x y hx hy h64 => ?_, fun f rc neg m e hm => ⟨roundFinite_overflow_iff hm f rc neg e, fun h => ?_⟩,
    fun rc k n x y hx hy => ⟨fpRem_exact k rc hx hy, fpRoundIntegral_exact k rc hx, fpLogBinary_exact k rc hx,
      fpScale_exact n hy⟩⟩
  · intro ok
    have exactly : ∀ (r : FpResult) (v : ℝ), (∃ c : FpNum, r = { num := c } ∧ c.Finite ∧ c.value = v) → ok r v := by
      rintro _ v ⟨c, rfl, hc, hv⟩
      exact roundsOnce_of_exact f rc hc hv
    obtain ⟨hneg, hnegv⟩ := negate_finite hx
    refine ⟨exactly _ _ ⟨x, rfl, hx, rfl⟩, exactly _ _ (fpAdd_finite k rc hx hy), exactly _ _ ?_, exactly _ _ ?_,
      fpDiv_rounds k f rc hx hy, fpSqrt_rounds k f rc hx h64⟩
    · rw [sub_eq_add_neg, ← hnegv]
      exact fpAdd_finite k rc hneg hy
    · rw [mul_comm]
      exact fpMul_finite k rc hx hy
  · obtain ⟨-, hover, -⟩ := roundFinite_eq f rc neg m e
    obtain ⟨hi, hn⟩ := hover h
    exact ⟨hi, hn.trans (overflowDefault_eq f rc neg)⟩

end Sys2Proof.Machine
end
